-- ==== Sys2Proof/Word.lean ====
section
/-! DEFINITION. The word types of the core (rule R6): a byte is 8 bits, a word 16 bits, both unsigned.
The helpers that join, split and extend them stand in Sys2Proof/Decode.lean. -/

namespace Sys2Proof

/-- A byte: 8 bits, an unsigned value 0..255 (R6). -/
abbrev Byte := BitVec 8

/-- A word: 16 bits, an unsigned value 0..65535 (R6); addresses and the program counter are words. -/
abbrev Word := BitVec 16

end Sys2Proof
end

