-- ==== Sys2Proof/Syntax.lean ====
section
/-! DEFINITION. The instruction set as syntax: mnemonics, addressing-mode tags, operands, and `Instr`, which has
one constructor per row of spec/opcode_table.json (231 rows: 203 always defined, 28 under `EXT_UNDOC`).
A constructor carries what follows the opcode byte (rule R81): nothing (format F1), the byte `b` (F2) or the
little-endian word `a` (F3). Opcode values are those of rules R86, R87 and R89. -/

namespace Sys2Proof

/-- The mnemonics (R92): 56 documented, 8 undocumented, and `UNK` for an opcode that is not defined (R84). -/
inductive Mnemonic where
  | LDA | LDX | LDY | STA | STX | STY | TAX | TAY | TXA | TYA | TSX | TXS
  | ADC | SBC | AND | ORA | EOR | CMP | CPX | CPY | BIT | INC | DEC | INX
  | INY | DEX | DEY | ASL | LSR | ROL | ROR | BCC | BCS | BEQ | BNE | BMI
  | BPL | BVC | BVS | JMP | JSR | RTS | BRK | RTI | PHA | PLA | PHP | PLP
  | CLC | SEC | CLI | SEI | CLD | SED | CLV | NOP | LAX | SAX | SLO | RLA
  | SRE | RRA | DCP | ISB | UNK
  deriving DecidableEq, Repr

/-- The fourteen addressing-mode tags (R83). -/
inductive AddrMode where
  | implied | accumulator | immediate | zeropage | zeropageX | zeropageY | absolute | absoluteX | absoluteY
  | indirect | indirectX | indirectY | relative | unknown
  deriving DecidableEq, Repr

/-- An operand as the addressing mode sees it: the mode with the operand bytes it consumed (R81, R93). -/
inductive Operand where
  | imp | acc
  | imm (b : Byte) | zp (b : Byte) | zpx (b : Byte) | zpy (b : Byte)
  | abs (a : Word) | abx (a : Word) | aby (a : Word) | ind (a : Word)
  | izx (b : Byte) | izy (b : Byte) | rel (b : Byte)
  deriving DecidableEq, Repr

/-- The instructions: one constructor per row of spec/opcode_table.json. An optional opcode (R89) carries its
opcode byte in its name. -/
inductive Instr where
  -- Loads, stores and transfers (42_load_store_transfer.md)
  | ldaIzx (b : Byte) | ldaZp (b : Byte) | ldaImm (b : Byte) | ldaAbs (a : Word) | ldaIzy (b : Byte) | ldaZpx (b : Byte) | ldaAby (a : Word) | ldaAbx (a : Word)
  | ldxImm (b : Byte) | ldxZp (b : Byte) | ldxAbs (a : Word) | ldxZpy (b : Byte) | ldxAby (a : Word)
  | ldyImm (b : Byte) | ldyZp (b : Byte) | ldyAbs (a : Word) | ldyZpx (b : Byte) | ldyAbx (a : Word)
  | staIzx (b : Byte) | staZp (b : Byte) | staAbs (a : Word) | staIzy (b : Byte) | staZpx (b : Byte) | staAby (a : Word) | staAbx (a : Word)
  | stxZp (b : Byte) | stxAbs (a : Word) | stxZpy (b : Byte)
  | styZp (b : Byte) | styAbs (a : Word) | styZpx (b : Byte)
  | tax
  | tay
  | txa
  | tya
  | tsx
  | txs
  -- Arithmetic, logic, compare, bit test, increment and decrement (43_arith_logic.md)
  | adcIzx (b : Byte) | adcZp (b : Byte) | adcImm (b : Byte) | adcAbs (a : Word) | adcIzy (b : Byte) | adcZpx (b : Byte) | adcAby (a : Word) | adcAbx (a : Word)
  | sbcIzx (b : Byte) | sbcZp (b : Byte) | sbcImm (b : Byte) | sbcAbs (a : Word) | sbcIzy (b : Byte) | sbcZpx (b : Byte) | sbcAby (a : Word) | sbcAbx (a : Word)
  | andIzx (b : Byte) | andZp (b : Byte) | andImm (b : Byte) | andAbs (a : Word) | andIzy (b : Byte) | andZpx (b : Byte) | andAby (a : Word) | andAbx (a : Word)
  | oraIzx (b : Byte) | oraZp (b : Byte) | oraImm (b : Byte) | oraAbs (a : Word) | oraIzy (b : Byte) | oraZpx (b : Byte) | oraAby (a : Word) | oraAbx (a : Word)
  | eorIzx (b : Byte) | eorZp (b : Byte) | eorImm (b : Byte) | eorAbs (a : Word) | eorIzy (b : Byte) | eorZpx (b : Byte) | eorAby (a : Word) | eorAbx (a : Word)
  | cmpIzx (b : Byte) | cmpZp (b : Byte) | cmpImm (b : Byte) | cmpAbs (a : Word) | cmpIzy (b : Byte) | cmpZpx (b : Byte) | cmpAby (a : Word) | cmpAbx (a : Word)
  | cpxImm (b : Byte) | cpxZp (b : Byte) | cpxAbs (a : Word)
  | cpyImm (b : Byte) | cpyZp (b : Byte) | cpyAbs (a : Word)
  | bitZp (b : Byte) | bitAbs (a : Word)
  | incZp (b : Byte) | incAbs (a : Word) | incZpx (b : Byte) | incAbx (a : Word)
  | decZp (b : Byte) | decAbs (a : Word) | decZpx (b : Byte) | decAbx (a : Word)
  | inx
  | iny
  | dex
  | dey
  -- Shifts and rotates (44_shift_rotate.md)
  | aslZp (b : Byte) | aslAcc | aslAbs (a : Word) | aslZpx (b : Byte) | aslAbx (a : Word)
  | lsrZp (b : Byte) | lsrAcc | lsrAbs (a : Word) | lsrZpx (b : Byte) | lsrAbx (a : Word)
  | rolZp (b : Byte) | rolAcc | rolAbs (a : Word) | rolZpx (b : Byte) | rolAbx (a : Word)
  | rorZp (b : Byte) | rorAcc | rorAbs (a : Word) | rorZpx (b : Byte) | rorAbx (a : Word)
  -- Branches, jumps, subroutines, BRK and RTI (45_control.md)
  | bcc (b : Byte)
  | bcs (b : Byte)
  | beq (b : Byte)
  | bne (b : Byte)
  | bmi (b : Byte)
  | bpl (b : Byte)
  | bvc (b : Byte)
  | bvs (b : Byte)
  | jmpAbs (a : Word) | jmpInd (a : Word)
  | jsr (a : Word)
  | rts
  | brk
  | rti
  -- Stack, flag set and clear, NOP (46_stack_flags.md)
  | pha
  | pla
  | php
  | plp
  | clc
  | sec
  | cli
  | sei
  | cld
  | sed
  | clv
  | nop
  -- Undocumented opcodes of the three named classes (47_undocumented.md)
  | laxIzx (b : Byte) | laxZp (b : Byte) | laxAbs (a : Word) | laxIzy (b : Byte) | laxZpy (b : Byte) | laxAby (a : Word)
  | saxIzx (b : Byte) | saxZp (b : Byte) | saxAbs (a : Word) | saxZpy (b : Byte)
  | sloIzx (b : Byte) | sloZp (b : Byte) | sloAbs (a : Word) | sloIzy (b : Byte) | sloZpx (b : Byte) | sloAby (a : Word) | sloAbx (a : Word)
  | rlaIzx (b : Byte) | rlaZp (b : Byte) | rlaAbs (a : Word) | rlaIzy (b : Byte) | rlaZpx (b : Byte) | rlaAby (a : Word) | rlaAbx (a : Word)
  | sreIzx (b : Byte) | sreZp (b : Byte) | sreAbs (a : Word) | sreIzy (b : Byte) | sreZpx (b : Byte) | sreAby (a : Word) | sreAbx (a : Word)
  | rraIzx (b : Byte) | rraZp (b : Byte) | rraAbs (a : Word) | rraIzy (b : Byte) | rraZpx (b : Byte) | rraAby (a : Word) | rraAbx (a : Word)
  | dcpIzx (b : Byte) | dcpZp (b : Byte) | dcpAbs (a : Word) | dcpIzy (b : Byte) | dcpZpx (b : Byte) | dcpAby (a : Word) | dcpAbx (a : Word)
  | isbIzx (b : Byte) | isbZp (b : Byte) | isbAbs (a : Word) | isbIzy (b : Byte) | isbZpx (b : Byte) | isbAby (a : Word) | isbAbx (a : Word)
  -- Optional opcodes, defined under EXT_UNDOC only (47_undocumented.md, R258 and R259)
  | nopZp04 (b : Byte) | nopAbs0C (a : Word) | nopZpx14 (b : Byte) | nopImp1A | nopAbx1C (a : Word) | nopZpx34 (b : Byte)
  | nopImp3A | nopAbx3C (a : Word) | nopZp44 (b : Byte) | nopZpx54 (b : Byte) | nopImp5A | nopAbx5C (a : Word)
  | nopZp64 (b : Byte) | nopZpx74 (b : Byte) | nopImp7A | nopAbx7C (a : Word) | nopImm80 (b : Byte) | nopImm82 (b : Byte)
  | nopImm89 (b : Byte) | nopImmC2 (b : Byte) | nopZpxD4 (b : Byte) | nopImpDA | nopAbxDC (a : Word) | nopImmE2 (b : Byte)
  | sbcImmEB (b : Byte) | nopZpxF4 (b : Byte) | nopImpFA | nopAbxFC (a : Word)
  deriving DecidableEq, Repr

end Sys2Proof
end

