-- ==== Sys2Proof/WellFormed.lean ====
section
/-! DEFINITION. Which instructions are well formed. Every operand byte is legal in every mode (rule R90), so the one
check is the launch parameter `EXT_UNDOC`: an optional opcode (rule R89) is an instruction only when it is true. -/

namespace Sys2Proof

/-- The 28 optional opcodes of rule R89: the 27 undocumented NOP forms and SBC 0xEB. -/
def Instr.optional : Instr → Bool
  | .ldaIzx _ | .ldaZp _ | .ldaImm _ | .ldaAbs _ | .ldaIzy _ | .ldaZpx _ | .ldaAby _ | .ldaAbx _ => false
  | .ldxImm _ | .ldxZp _ | .ldxAbs _ | .ldxZpy _ | .ldxAby _ => false
  | .ldyImm _ | .ldyZp _ | .ldyAbs _ | .ldyZpx _ | .ldyAbx _ => false
  | .staIzx _ | .staZp _ | .staAbs _ | .staIzy _ | .staZpx _ | .staAby _ | .staAbx _ => false
  | .stxZp _ | .stxAbs _ | .stxZpy _ => false
  | .styZp _ | .styAbs _ | .styZpx _ => false
  | .tax => false
  | .tay => false
  | .txa => false
  | .tya => false
  | .tsx => false
  | .txs => false
  | .adcIzx _ | .adcZp _ | .adcImm _ | .adcAbs _ | .adcIzy _ | .adcZpx _ | .adcAby _ | .adcAbx _ => false
  | .sbcIzx _ | .sbcZp _ | .sbcImm _ | .sbcAbs _ | .sbcIzy _ | .sbcZpx _ | .sbcAby _ | .sbcAbx _ => false
  | .andIzx _ | .andZp _ | .andImm _ | .andAbs _ | .andIzy _ | .andZpx _ | .andAby _ | .andAbx _ => false
  | .oraIzx _ | .oraZp _ | .oraImm _ | .oraAbs _ | .oraIzy _ | .oraZpx _ | .oraAby _ | .oraAbx _ => false
  | .eorIzx _ | .eorZp _ | .eorImm _ | .eorAbs _ | .eorIzy _ | .eorZpx _ | .eorAby _ | .eorAbx _ => false
  | .cmpIzx _ | .cmpZp _ | .cmpImm _ | .cmpAbs _ | .cmpIzy _ | .cmpZpx _ | .cmpAby _ | .cmpAbx _ => false
  | .cpxImm _ | .cpxZp _ | .cpxAbs _ => false
  | .cpyImm _ | .cpyZp _ | .cpyAbs _ => false
  | .bitZp _ | .bitAbs _ => false
  | .incZp _ | .incAbs _ | .incZpx _ | .incAbx _ => false
  | .decZp _ | .decAbs _ | .decZpx _ | .decAbx _ => false
  | .inx => false
  | .iny => false
  | .dex => false
  | .dey => false
  | .aslZp _ | .aslAcc | .aslAbs _ | .aslZpx _ | .aslAbx _ => false
  | .lsrZp _ | .lsrAcc | .lsrAbs _ | .lsrZpx _ | .lsrAbx _ => false
  | .rolZp _ | .rolAcc | .rolAbs _ | .rolZpx _ | .rolAbx _ => false
  | .rorZp _ | .rorAcc | .rorAbs _ | .rorZpx _ | .rorAbx _ => false
  | .bcc _ => false
  | .bcs _ => false
  | .beq _ => false
  | .bne _ => false
  | .bmi _ => false
  | .bpl _ => false
  | .bvc _ => false
  | .bvs _ => false
  | .jmpAbs _ | .jmpInd _ => false
  | .jsr _ => false
  | .rts => false
  | .brk => false
  | .rti => false
  | .pha => false
  | .pla => false
  | .php => false
  | .plp => false
  | .clc => false
  | .sec => false
  | .cli => false
  | .sei => false
  | .cld => false
  | .sed => false
  | .clv => false
  | .nop => false
  | .laxIzx _ | .laxZp _ | .laxAbs _ | .laxIzy _ | .laxZpy _ | .laxAby _ => false
  | .saxIzx _ | .saxZp _ | .saxAbs _ | .saxZpy _ => false
  | .sloIzx _ | .sloZp _ | .sloAbs _ | .sloIzy _ | .sloZpx _ | .sloAby _ | .sloAbx _ => false
  | .rlaIzx _ | .rlaZp _ | .rlaAbs _ | .rlaIzy _ | .rlaZpx _ | .rlaAby _ | .rlaAbx _ => false
  | .sreIzx _ | .sreZp _ | .sreAbs _ | .sreIzy _ | .sreZpx _ | .sreAby _ | .sreAbx _ => false
  | .rraIzx _ | .rraZp _ | .rraAbs _ | .rraIzy _ | .rraZpx _ | .rraAby _ | .rraAbx _ => false
  | .dcpIzx _ | .dcpZp _ | .dcpAbs _ | .dcpIzy _ | .dcpZpx _ | .dcpAby _ | .dcpAbx _ => false
  | .isbIzx _ | .isbZp _ | .isbAbs _ | .isbIzy _ | .isbZpx _ | .isbAby _ | .isbAbx _ => false
  | .nopZp04 _ | .nopAbs0C _ | .nopZpx14 _ | .nopImp1A | .nopAbx1C _ | .nopZpx34 _ | .nopImp3A => true
  | .nopAbx3C _ | .nopZp44 _ | .nopZpx54 _ | .nopImp5A | .nopAbx5C _ | .nopZp64 _ | .nopZpx74 _ => true
  | .nopImp7A | .nopAbx7C _ | .nopImm80 _ | .nopImm82 _ | .nopImm89 _ | .nopImmC2 _ | .nopZpxD4 _ => true
  | .nopImpDA | .nopAbxDC _ | .nopImmE2 _ | .sbcImmEB _ | .nopZpxF4 _ | .nopImpFA | .nopAbxFC _ => true

/-- Whether an instruction exists in a core whose `EXT_UNDOC` is `ext` (R85, R89, R90). -/
def Instr.wellFormed (ext : Bool) (i : Instr) : Bool := ext || !i.optional

end Sys2Proof
end

