-- ==== Sys2Proof/Decode.lean ====
section
/-! DEFINITION. The `6502_decoder` (30_encoding.md): the byte-order helpers, the 256-entry opcode table of rules R86,
R87, R89 and R91, `Decode(op)` (R84), the decoder from bytes to `Instr` and, after it, the encoder. -/

namespace Sys2Proof

/-! ### Bytes and words (R6) -/

/-- `{hi, lo}`: the word `hi*256 + lo` (R6). -/
def wordOf (hi lo : Byte) : Word := hi ++ lo

/-- `w[7:0]` (R6). -/
def loByte (w : Word) : Byte := w.extractLsb' 0 8

/-- `w[15:8]` (R6). -/
def hiByte (w : Word) : Byte := w.extractLsb' 8 8

/-- `zext_16(b)` (R6). -/
def zext16 (b : Byte) : Word := b.setWidth 16

/-- `sext_16(b)`: `b` if `b < 128`, else `b + 0xFF00` (R6). -/
def sext16 (b : Byte) : Word := b.signExtend 16

/-! ### Modes and operands -/

/-- The mode tag of an operand (R83). -/
def Operand.mode : Operand → AddrMode
  | .imp => .implied | .acc => .accumulator | .imm _ => .immediate
  | .zp _ => .zeropage | .zpx _ => .zeropageX | .zpy _ => .zeropageY
  | .abs _ => .absolute | .abx _ => .absoluteX | .aby _ => .absoluteY | .ind _ => .indirect
  | .izx _ => .indirectX | .izy _ => .indirectY | .rel _ => .relative

/-- `bytes_consumed(mode)`: the operand bytes a mode takes (R83, second column of the source's table). -/
def AddrMode.operandBytes : AddrMode → Nat
  | .implied | .accumulator | .unknown => 0
  | .immediate | .zeropage | .zeropageX | .zeropageY | .indirectX | .indirectY | .relative => 1
  | .absolute | .absoluteX | .absoluteY | .indirect => 2

/-- `length(mode) = 1 + bytes_consumed(mode)` (R82). -/
def AddrMode.length (m : AddrMode) : Nat := 1 + m.operandBytes

/-- The operand bytes in memory order, the low byte of an address first (R58, R81). -/
def Operand.bytes : Operand → List Byte
  | .imp | .acc => []
  | .imm b | .zp b | .zpx b | .zpy b | .izx b | .izy b | .rel b => [b]
  | .abs a | .abx a | .aby a | .ind a => [loByte a, hiByte a]

/-! ### The opcode metadata table (R33, R84, R91) -/

/-- How the operand bytes complete an instruction: format F1 takes none, F2 the byte after the opcode, F3 the
little-endian word after it (R81). -/
inductive Build where
  | alone (i : Instr)
  | byte (mk : Byte → Instr)
  | word (mk : Word → Instr)

/-- One entry of the table: mnemonic and mode tag (R84), whether it is defined under `EXT_UNDOC` only (R89), and
the instruction it names. -/
structure OpcodeRow where
  mnemonic : Mnemonic
  mode : AddrMode
  optional : Bool
  build : Build

/-- Opcodes 0x00 to 0x0F (R91, row 0x). -/
def opcodeRow0 : List (Option OpcodeRow) := [
  some ⟨.BRK, .implied, false, .alone .brk⟩,  -- 00
  some ⟨.ORA, .indirectX, false, .byte .oraIzx⟩,  -- 01
  none,  -- 02
  some ⟨.SLO, .indirectX, false, .byte .sloIzx⟩,  -- 03
  some ⟨.NOP, .zeropage, true, .byte .nopZp04⟩,  -- 04
  some ⟨.ORA, .zeropage, false, .byte .oraZp⟩,  -- 05
  some ⟨.ASL, .zeropage, false, .byte .aslZp⟩,  -- 06
  some ⟨.SLO, .zeropage, false, .byte .sloZp⟩,  -- 07
  some ⟨.PHP, .implied, false, .alone .php⟩,  -- 08
  some ⟨.ORA, .immediate, false, .byte .oraImm⟩,  -- 09
  some ⟨.ASL, .accumulator, false, .alone .aslAcc⟩,  -- 0A
  none,  -- 0B
  some ⟨.NOP, .absolute, true, .word .nopAbs0C⟩,  -- 0C
  some ⟨.ORA, .absolute, false, .word .oraAbs⟩,  -- 0D
  some ⟨.ASL, .absolute, false, .word .aslAbs⟩,  -- 0E
  some ⟨.SLO, .absolute, false, .word .sloAbs⟩]  -- 0F

/-- Opcodes 0x10 to 0x1F (R91, row 1x). -/
def opcodeRow1 : List (Option OpcodeRow) := [
  some ⟨.BPL, .relative, false, .byte .bpl⟩,  -- 10
  some ⟨.ORA, .indirectY, false, .byte .oraIzy⟩,  -- 11
  none,  -- 12
  some ⟨.SLO, .indirectY, false, .byte .sloIzy⟩,  -- 13
  some ⟨.NOP, .zeropageX, true, .byte .nopZpx14⟩,  -- 14
  some ⟨.ORA, .zeropageX, false, .byte .oraZpx⟩,  -- 15
  some ⟨.ASL, .zeropageX, false, .byte .aslZpx⟩,  -- 16
  some ⟨.SLO, .zeropageX, false, .byte .sloZpx⟩,  -- 17
  some ⟨.CLC, .implied, false, .alone .clc⟩,  -- 18
  some ⟨.ORA, .absoluteY, false, .word .oraAby⟩,  -- 19
  some ⟨.NOP, .implied, true, .alone .nopImp1A⟩,  -- 1A
  some ⟨.SLO, .absoluteY, false, .word .sloAby⟩,  -- 1B
  some ⟨.NOP, .absoluteX, true, .word .nopAbx1C⟩,  -- 1C
  some ⟨.ORA, .absoluteX, false, .word .oraAbx⟩,  -- 1D
  some ⟨.ASL, .absoluteX, false, .word .aslAbx⟩,  -- 1E
  some ⟨.SLO, .absoluteX, false, .word .sloAbx⟩]  -- 1F

/-- Opcodes 0x20 to 0x2F (R91, row 2x). -/
def opcodeRow2 : List (Option OpcodeRow) := [
  some ⟨.JSR, .absolute, false, .word .jsr⟩,  -- 20
  some ⟨.AND, .indirectX, false, .byte .andIzx⟩,  -- 21
  none,  -- 22
  some ⟨.RLA, .indirectX, false, .byte .rlaIzx⟩,  -- 23
  some ⟨.BIT, .zeropage, false, .byte .bitZp⟩,  -- 24
  some ⟨.AND, .zeropage, false, .byte .andZp⟩,  -- 25
  some ⟨.ROL, .zeropage, false, .byte .rolZp⟩,  -- 26
  some ⟨.RLA, .zeropage, false, .byte .rlaZp⟩,  -- 27
  some ⟨.PLP, .implied, false, .alone .plp⟩,  -- 28
  some ⟨.AND, .immediate, false, .byte .andImm⟩,  -- 29
  some ⟨.ROL, .accumulator, false, .alone .rolAcc⟩,  -- 2A
  none,  -- 2B
  some ⟨.BIT, .absolute, false, .word .bitAbs⟩,  -- 2C
  some ⟨.AND, .absolute, false, .word .andAbs⟩,  -- 2D
  some ⟨.ROL, .absolute, false, .word .rolAbs⟩,  -- 2E
  some ⟨.RLA, .absolute, false, .word .rlaAbs⟩]  -- 2F

/-- Opcodes 0x30 to 0x3F (R91, row 3x). -/
def opcodeRow3 : List (Option OpcodeRow) := [
  some ⟨.BMI, .relative, false, .byte .bmi⟩,  -- 30
  some ⟨.AND, .indirectY, false, .byte .andIzy⟩,  -- 31
  none,  -- 32
  some ⟨.RLA, .indirectY, false, .byte .rlaIzy⟩,  -- 33
  some ⟨.NOP, .zeropageX, true, .byte .nopZpx34⟩,  -- 34
  some ⟨.AND, .zeropageX, false, .byte .andZpx⟩,  -- 35
  some ⟨.ROL, .zeropageX, false, .byte .rolZpx⟩,  -- 36
  some ⟨.RLA, .zeropageX, false, .byte .rlaZpx⟩,  -- 37
  some ⟨.SEC, .implied, false, .alone .sec⟩,  -- 38
  some ⟨.AND, .absoluteY, false, .word .andAby⟩,  -- 39
  some ⟨.NOP, .implied, true, .alone .nopImp3A⟩,  -- 3A
  some ⟨.RLA, .absoluteY, false, .word .rlaAby⟩,  -- 3B
  some ⟨.NOP, .absoluteX, true, .word .nopAbx3C⟩,  -- 3C
  some ⟨.AND, .absoluteX, false, .word .andAbx⟩,  -- 3D
  some ⟨.ROL, .absoluteX, false, .word .rolAbx⟩,  -- 3E
  some ⟨.RLA, .absoluteX, false, .word .rlaAbx⟩]  -- 3F

/-- Opcodes 0x40 to 0x4F (R91, row 4x). -/
def opcodeRow4 : List (Option OpcodeRow) := [
  some ⟨.RTI, .implied, false, .alone .rti⟩,  -- 40
  some ⟨.EOR, .indirectX, false, .byte .eorIzx⟩,  -- 41
  none,  -- 42
  some ⟨.SRE, .indirectX, false, .byte .sreIzx⟩,  -- 43
  some ⟨.NOP, .zeropage, true, .byte .nopZp44⟩,  -- 44
  some ⟨.EOR, .zeropage, false, .byte .eorZp⟩,  -- 45
  some ⟨.LSR, .zeropage, false, .byte .lsrZp⟩,  -- 46
  some ⟨.SRE, .zeropage, false, .byte .sreZp⟩,  -- 47
  some ⟨.PHA, .implied, false, .alone .pha⟩,  -- 48
  some ⟨.EOR, .immediate, false, .byte .eorImm⟩,  -- 49
  some ⟨.LSR, .accumulator, false, .alone .lsrAcc⟩,  -- 4A
  none,  -- 4B
  some ⟨.JMP, .absolute, false, .word .jmpAbs⟩,  -- 4C
  some ⟨.EOR, .absolute, false, .word .eorAbs⟩,  -- 4D
  some ⟨.LSR, .absolute, false, .word .lsrAbs⟩,  -- 4E
  some ⟨.SRE, .absolute, false, .word .sreAbs⟩]  -- 4F

/-- Opcodes 0x50 to 0x5F (R91, row 5x). -/
def opcodeRow5 : List (Option OpcodeRow) := [
  some ⟨.BVC, .relative, false, .byte .bvc⟩,  -- 50
  some ⟨.EOR, .indirectY, false, .byte .eorIzy⟩,  -- 51
  none,  -- 52
  some ⟨.SRE, .indirectY, false, .byte .sreIzy⟩,  -- 53
  some ⟨.NOP, .zeropageX, true, .byte .nopZpx54⟩,  -- 54
  some ⟨.EOR, .zeropageX, false, .byte .eorZpx⟩,  -- 55
  some ⟨.LSR, .zeropageX, false, .byte .lsrZpx⟩,  -- 56
  some ⟨.SRE, .zeropageX, false, .byte .sreZpx⟩,  -- 57
  some ⟨.CLI, .implied, false, .alone .cli⟩,  -- 58
  some ⟨.EOR, .absoluteY, false, .word .eorAby⟩,  -- 59
  some ⟨.NOP, .implied, true, .alone .nopImp5A⟩,  -- 5A
  some ⟨.SRE, .absoluteY, false, .word .sreAby⟩,  -- 5B
  some ⟨.NOP, .absoluteX, true, .word .nopAbx5C⟩,  -- 5C
  some ⟨.EOR, .absoluteX, false, .word .eorAbx⟩,  -- 5D
  some ⟨.LSR, .absoluteX, false, .word .lsrAbx⟩,  -- 5E
  some ⟨.SRE, .absoluteX, false, .word .sreAbx⟩]  -- 5F

/-- Opcodes 0x60 to 0x6F (R91, row 6x). -/
def opcodeRow6 : List (Option OpcodeRow) := [
  some ⟨.RTS, .implied, false, .alone .rts⟩,  -- 60
  some ⟨.ADC, .indirectX, false, .byte .adcIzx⟩,  -- 61
  none,  -- 62
  some ⟨.RRA, .indirectX, false, .byte .rraIzx⟩,  -- 63
  some ⟨.NOP, .zeropage, true, .byte .nopZp64⟩,  -- 64
  some ⟨.ADC, .zeropage, false, .byte .adcZp⟩,  -- 65
  some ⟨.ROR, .zeropage, false, .byte .rorZp⟩,  -- 66
  some ⟨.RRA, .zeropage, false, .byte .rraZp⟩,  -- 67
  some ⟨.PLA, .implied, false, .alone .pla⟩,  -- 68
  some ⟨.ADC, .immediate, false, .byte .adcImm⟩,  -- 69
  some ⟨.ROR, .accumulator, false, .alone .rorAcc⟩,  -- 6A
  none,  -- 6B
  some ⟨.JMP, .indirect, false, .word .jmpInd⟩,  -- 6C
  some ⟨.ADC, .absolute, false, .word .adcAbs⟩,  -- 6D
  some ⟨.ROR, .absolute, false, .word .rorAbs⟩,  -- 6E
  some ⟨.RRA, .absolute, false, .word .rraAbs⟩]  -- 6F

/-- Opcodes 0x70 to 0x7F (R91, row 7x). -/
def opcodeRow7 : List (Option OpcodeRow) := [
  some ⟨.BVS, .relative, false, .byte .bvs⟩,  -- 70
  some ⟨.ADC, .indirectY, false, .byte .adcIzy⟩,  -- 71
  none,  -- 72
  some ⟨.RRA, .indirectY, false, .byte .rraIzy⟩,  -- 73
  some ⟨.NOP, .zeropageX, true, .byte .nopZpx74⟩,  -- 74
  some ⟨.ADC, .zeropageX, false, .byte .adcZpx⟩,  -- 75
  some ⟨.ROR, .zeropageX, false, .byte .rorZpx⟩,  -- 76
  some ⟨.RRA, .zeropageX, false, .byte .rraZpx⟩,  -- 77
  some ⟨.SEI, .implied, false, .alone .sei⟩,  -- 78
  some ⟨.ADC, .absoluteY, false, .word .adcAby⟩,  -- 79
  some ⟨.NOP, .implied, true, .alone .nopImp7A⟩,  -- 7A
  some ⟨.RRA, .absoluteY, false, .word .rraAby⟩,  -- 7B
  some ⟨.NOP, .absoluteX, true, .word .nopAbx7C⟩,  -- 7C
  some ⟨.ADC, .absoluteX, false, .word .adcAbx⟩,  -- 7D
  some ⟨.ROR, .absoluteX, false, .word .rorAbx⟩,  -- 7E
  some ⟨.RRA, .absoluteX, false, .word .rraAbx⟩]  -- 7F

/-- Opcodes 0x80 to 0x8F (R91, row 8x). -/
def opcodeRow8 : List (Option OpcodeRow) := [
  some ⟨.NOP, .immediate, true, .byte .nopImm80⟩,  -- 80
  some ⟨.STA, .indirectX, false, .byte .staIzx⟩,  -- 81
  some ⟨.NOP, .immediate, true, .byte .nopImm82⟩,  -- 82
  some ⟨.SAX, .indirectX, false, .byte .saxIzx⟩,  -- 83
  some ⟨.STY, .zeropage, false, .byte .styZp⟩,  -- 84
  some ⟨.STA, .zeropage, false, .byte .staZp⟩,  -- 85
  some ⟨.STX, .zeropage, false, .byte .stxZp⟩,  -- 86
  some ⟨.SAX, .zeropage, false, .byte .saxZp⟩,  -- 87
  some ⟨.DEY, .implied, false, .alone .dey⟩,  -- 88
  some ⟨.NOP, .immediate, true, .byte .nopImm89⟩,  -- 89
  some ⟨.TXA, .implied, false, .alone .txa⟩,  -- 8A
  none,  -- 8B
  some ⟨.STY, .absolute, false, .word .styAbs⟩,  -- 8C
  some ⟨.STA, .absolute, false, .word .staAbs⟩,  -- 8D
  some ⟨.STX, .absolute, false, .word .stxAbs⟩,  -- 8E
  some ⟨.SAX, .absolute, false, .word .saxAbs⟩]  -- 8F

/-- Opcodes 0x90 to 0x9F (R91, row 9x). -/
def opcodeRow9 : List (Option OpcodeRow) := [
  some ⟨.BCC, .relative, false, .byte .bcc⟩,  -- 90
  some ⟨.STA, .indirectY, false, .byte .staIzy⟩,  -- 91
  none,  -- 92
  none,  -- 93
  some ⟨.STY, .zeropageX, false, .byte .styZpx⟩,  -- 94
  some ⟨.STA, .zeropageX, false, .byte .staZpx⟩,  -- 95
  some ⟨.STX, .zeropageY, false, .byte .stxZpy⟩,  -- 96
  some ⟨.SAX, .zeropageY, false, .byte .saxZpy⟩,  -- 97
  some ⟨.TYA, .implied, false, .alone .tya⟩,  -- 98
  some ⟨.STA, .absoluteY, false, .word .staAby⟩,  -- 99
  some ⟨.TXS, .implied, false, .alone .txs⟩,  -- 9A
  none,  -- 9B
  none,  -- 9C
  some ⟨.STA, .absoluteX, false, .word .staAbx⟩,  -- 9D
  none,  -- 9E
  none]  -- 9F

/-- Opcodes 0xA0 to 0xAF (R91, row Ax). -/
def opcodeRowA : List (Option OpcodeRow) := [
  some ⟨.LDY, .immediate, false, .byte .ldyImm⟩,  -- A0
  some ⟨.LDA, .indirectX, false, .byte .ldaIzx⟩,  -- A1
  some ⟨.LDX, .immediate, false, .byte .ldxImm⟩,  -- A2
  some ⟨.LAX, .indirectX, false, .byte .laxIzx⟩,  -- A3
  some ⟨.LDY, .zeropage, false, .byte .ldyZp⟩,  -- A4
  some ⟨.LDA, .zeropage, false, .byte .ldaZp⟩,  -- A5
  some ⟨.LDX, .zeropage, false, .byte .ldxZp⟩,  -- A6
  some ⟨.LAX, .zeropage, false, .byte .laxZp⟩,  -- A7
  some ⟨.TAY, .implied, false, .alone .tay⟩,  -- A8
  some ⟨.LDA, .immediate, false, .byte .ldaImm⟩,  -- A9
  some ⟨.TAX, .implied, false, .alone .tax⟩,  -- AA
  none,  -- AB
  some ⟨.LDY, .absolute, false, .word .ldyAbs⟩,  -- AC
  some ⟨.LDA, .absolute, false, .word .ldaAbs⟩,  -- AD
  some ⟨.LDX, .absolute, false, .word .ldxAbs⟩,  -- AE
  some ⟨.LAX, .absolute, false, .word .laxAbs⟩]  -- AF

/-- Opcodes 0xB0 to 0xBF (R91, row Bx). -/
def opcodeRowB : List (Option OpcodeRow) := [
  some ⟨.BCS, .relative, false, .byte .bcs⟩,  -- B0
  some ⟨.LDA, .indirectY, false, .byte .ldaIzy⟩,  -- B1
  none,  -- B2
  some ⟨.LAX, .indirectY, false, .byte .laxIzy⟩,  -- B3
  some ⟨.LDY, .zeropageX, false, .byte .ldyZpx⟩,  -- B4
  some ⟨.LDA, .zeropageX, false, .byte .ldaZpx⟩,  -- B5
  some ⟨.LDX, .zeropageY, false, .byte .ldxZpy⟩,  -- B6
  some ⟨.LAX, .zeropageY, false, .byte .laxZpy⟩,  -- B7
  some ⟨.CLV, .implied, false, .alone .clv⟩,  -- B8
  some ⟨.LDA, .absoluteY, false, .word .ldaAby⟩,  -- B9
  some ⟨.TSX, .implied, false, .alone .tsx⟩,  -- BA
  none,  -- BB
  some ⟨.LDY, .absoluteX, false, .word .ldyAbx⟩,  -- BC
  some ⟨.LDA, .absoluteX, false, .word .ldaAbx⟩,  -- BD
  some ⟨.LDX, .absoluteY, false, .word .ldxAby⟩,  -- BE
  some ⟨.LAX, .absoluteY, false, .word .laxAby⟩]  -- BF

/-- Opcodes 0xC0 to 0xCF (R91, row Cx). -/
def opcodeRowC : List (Option OpcodeRow) := [
  some ⟨.CPY, .immediate, false, .byte .cpyImm⟩,  -- C0
  some ⟨.CMP, .indirectX, false, .byte .cmpIzx⟩,  -- C1
  some ⟨.NOP, .immediate, true, .byte .nopImmC2⟩,  -- C2
  some ⟨.DCP, .indirectX, false, .byte .dcpIzx⟩,  -- C3
  some ⟨.CPY, .zeropage, false, .byte .cpyZp⟩,  -- C4
  some ⟨.CMP, .zeropage, false, .byte .cmpZp⟩,  -- C5
  some ⟨.DEC, .zeropage, false, .byte .decZp⟩,  -- C6
  some ⟨.DCP, .zeropage, false, .byte .dcpZp⟩,  -- C7
  some ⟨.INY, .implied, false, .alone .iny⟩,  -- C8
  some ⟨.CMP, .immediate, false, .byte .cmpImm⟩,  -- C9
  some ⟨.DEX, .implied, false, .alone .dex⟩,  -- CA
  none,  -- CB
  some ⟨.CPY, .absolute, false, .word .cpyAbs⟩,  -- CC
  some ⟨.CMP, .absolute, false, .word .cmpAbs⟩,  -- CD
  some ⟨.DEC, .absolute, false, .word .decAbs⟩,  -- CE
  some ⟨.DCP, .absolute, false, .word .dcpAbs⟩]  -- CF

/-- Opcodes 0xD0 to 0xDF (R91, row Dx). -/
def opcodeRowD : List (Option OpcodeRow) := [
  some ⟨.BNE, .relative, false, .byte .bne⟩,  -- D0
  some ⟨.CMP, .indirectY, false, .byte .cmpIzy⟩,  -- D1
  none,  -- D2
  some ⟨.DCP, .indirectY, false, .byte .dcpIzy⟩,  -- D3
  some ⟨.NOP, .zeropageX, true, .byte .nopZpxD4⟩,  -- D4
  some ⟨.CMP, .zeropageX, false, .byte .cmpZpx⟩,  -- D5
  some ⟨.DEC, .zeropageX, false, .byte .decZpx⟩,  -- D6
  some ⟨.DCP, .zeropageX, false, .byte .dcpZpx⟩,  -- D7
  some ⟨.CLD, .implied, false, .alone .cld⟩,  -- D8
  some ⟨.CMP, .absoluteY, false, .word .cmpAby⟩,  -- D9
  some ⟨.NOP, .implied, true, .alone .nopImpDA⟩,  -- DA
  some ⟨.DCP, .absoluteY, false, .word .dcpAby⟩,  -- DB
  some ⟨.NOP, .absoluteX, true, .word .nopAbxDC⟩,  -- DC
  some ⟨.CMP, .absoluteX, false, .word .cmpAbx⟩,  -- DD
  some ⟨.DEC, .absoluteX, false, .word .decAbx⟩,  -- DE
  some ⟨.DCP, .absoluteX, false, .word .dcpAbx⟩]  -- DF

/-- Opcodes 0xE0 to 0xEF (R91, row Ex). -/
def opcodeRowE : List (Option OpcodeRow) := [
  some ⟨.CPX, .immediate, false, .byte .cpxImm⟩,  -- E0
  some ⟨.SBC, .indirectX, false, .byte .sbcIzx⟩,  -- E1
  some ⟨.NOP, .immediate, true, .byte .nopImmE2⟩,  -- E2
  some ⟨.ISB, .indirectX, false, .byte .isbIzx⟩,  -- E3
  some ⟨.CPX, .zeropage, false, .byte .cpxZp⟩,  -- E4
  some ⟨.SBC, .zeropage, false, .byte .sbcZp⟩,  -- E5
  some ⟨.INC, .zeropage, false, .byte .incZp⟩,  -- E6
  some ⟨.ISB, .zeropage, false, .byte .isbZp⟩,  -- E7
  some ⟨.INX, .implied, false, .alone .inx⟩,  -- E8
  some ⟨.SBC, .immediate, false, .byte .sbcImm⟩,  -- E9
  some ⟨.NOP, .implied, false, .alone .nop⟩,  -- EA
  some ⟨.SBC, .immediate, true, .byte .sbcImmEB⟩,  -- EB
  some ⟨.CPX, .absolute, false, .word .cpxAbs⟩,  -- EC
  some ⟨.SBC, .absolute, false, .word .sbcAbs⟩,  -- ED
  some ⟨.INC, .absolute, false, .word .incAbs⟩,  -- EE
  some ⟨.ISB, .absolute, false, .word .isbAbs⟩]  -- EF

/-- Opcodes 0xF0 to 0xFF (R91, row Fx). -/
def opcodeRowF : List (Option OpcodeRow) := [
  some ⟨.BEQ, .relative, false, .byte .beq⟩,  -- F0
  some ⟨.SBC, .indirectY, false, .byte .sbcIzy⟩,  -- F1
  none,  -- F2
  some ⟨.ISB, .indirectY, false, .byte .isbIzy⟩,  -- F3
  some ⟨.NOP, .zeropageX, true, .byte .nopZpxF4⟩,  -- F4
  some ⟨.SBC, .zeropageX, false, .byte .sbcZpx⟩,  -- F5
  some ⟨.INC, .zeropageX, false, .byte .incZpx⟩,  -- F6
  some ⟨.ISB, .zeropageX, false, .byte .isbZpx⟩,  -- F7
  some ⟨.SED, .implied, false, .alone .sed⟩,  -- F8
  some ⟨.SBC, .absoluteY, false, .word .sbcAby⟩,  -- F9
  some ⟨.NOP, .implied, true, .alone .nopImpFA⟩,  -- FA
  some ⟨.ISB, .absoluteY, false, .word .isbAby⟩,  -- FB
  some ⟨.NOP, .absoluteX, true, .word .nopAbxFC⟩,  -- FC
  some ⟨.SBC, .absoluteX, false, .word .sbcAbx⟩,  -- FD
  some ⟨.INC, .absoluteX, false, .word .incAbx⟩,  -- FE
  some ⟨.ISB, .absoluteX, false, .word .isbAbx⟩]  -- FF

/-- The 256-entry opcode metadata table, row by row of the matrix of R91. -/
def opcodeTable : List (Option OpcodeRow) :=
  opcodeRow0 ++ opcodeRow1 ++ opcodeRow2 ++ opcodeRow3 ++ opcodeRow4 ++ opcodeRow5 ++ opcodeRow6 ++ opcodeRow7 ++
  opcodeRow8 ++ opcodeRow9 ++ opcodeRowA ++ opcodeRowB ++ opcodeRowC ++ opcodeRowD ++ opcodeRowE ++ opcodeRowF

/-- The row of an opcode byte, if the opcode is defined in a core whose `EXT_UNDOC` is `ext` (R85, R88, R89). -/
def opcodeEntry (ext : Bool) (op : Byte) : Option OpcodeRow :=
  match opcodeTable[op.toNat]? with
  | some (some row) => if row.optional && !ext then none else some row
  | _ => none

/-- `Decode(op)`: total, `("UNK", UNKNOWN)` for an opcode that is not defined (R84, R88, R89). -/
def decodeOp (ext : Bool) (op : Byte) : Mnemonic × AddrMode :=
  match opcodeEntry ext op with
  | some row => (row.mnemonic, row.mode)
  | none => (.UNK, .unknown)

/-! ### The decoder -/

/-- Why bytes are no instruction: the opcode is not defined (R90), or the bytes end before the operand does. -/
inductive Reject where
  | undefinedOpcode (op : Byte)
  | truncated
  deriving DecidableEq, Repr

/-- What the decoder answers: an instruction and the bytes after it, or a named rejection. -/
inductive DecodeResult where
  | decoded (i : Instr) (rest : List Byte)
  | rejected (r : Reject)
  deriving DecidableEq, Repr

/-- Completes a table entry with the bytes that follow the opcode (R80, R81). -/
def Build.complete : Build → List Byte → DecodeResult
  | .alone i, rest => .decoded i rest
  | .byte mk, b1 :: rest => .decoded (mk b1) rest
  | .word mk, b1 :: b2 :: rest => .decoded (mk (wordOf b2 b1)) rest
  | .byte _, [] | .word _, [] | .word _, [_] => .rejected .truncated

/-- The decoder: the instruction at the front of a list of bytes, with the bytes after it (R80, R84). -/
def decode (ext : Bool) : List Byte → DecodeResult
  | [] => .rejected .truncated
  | op :: rest =>
    match opcodeEntry ext op with
    | none => .rejected (.undefinedOpcode op)
    | some row => row.build.complete rest

/-! ### The encoder -/

/-- The opcode byte of an instruction (R86, R87, R89). -/
def Instr.opcode : Instr → Byte
  | .ldaIzx _ => 0xA1 | .ldaZp _ => 0xA5 | .ldaImm _ => 0xA9 | .ldaAbs _ => 0xAD | .ldaIzy _ => 0xB1 | .ldaZpx _ => 0xB5 | .ldaAby _ => 0xB9 | .ldaAbx _ => 0xBD
  | .ldxImm _ => 0xA2 | .ldxZp _ => 0xA6 | .ldxAbs _ => 0xAE | .ldxZpy _ => 0xB6 | .ldxAby _ => 0xBE
  | .ldyImm _ => 0xA0 | .ldyZp _ => 0xA4 | .ldyAbs _ => 0xAC | .ldyZpx _ => 0xB4 | .ldyAbx _ => 0xBC
  | .staIzx _ => 0x81 | .staZp _ => 0x85 | .staAbs _ => 0x8D | .staIzy _ => 0x91 | .staZpx _ => 0x95 | .staAby _ => 0x99 | .staAbx _ => 0x9D
  | .stxZp _ => 0x86 | .stxAbs _ => 0x8E | .stxZpy _ => 0x96
  | .styZp _ => 0x84 | .styAbs _ => 0x8C | .styZpx _ => 0x94
  | .tax => 0xAA
  | .tay => 0xA8
  | .txa => 0x8A
  | .tya => 0x98
  | .tsx => 0xBA
  | .txs => 0x9A
  | .adcIzx _ => 0x61 | .adcZp _ => 0x65 | .adcImm _ => 0x69 | .adcAbs _ => 0x6D | .adcIzy _ => 0x71 | .adcZpx _ => 0x75 | .adcAby _ => 0x79 | .adcAbx _ => 0x7D
  | .sbcIzx _ => 0xE1 | .sbcZp _ => 0xE5 | .sbcImm _ => 0xE9 | .sbcAbs _ => 0xED | .sbcIzy _ => 0xF1 | .sbcZpx _ => 0xF5 | .sbcAby _ => 0xF9 | .sbcAbx _ => 0xFD
  | .andIzx _ => 0x21 | .andZp _ => 0x25 | .andImm _ => 0x29 | .andAbs _ => 0x2D | .andIzy _ => 0x31 | .andZpx _ => 0x35 | .andAby _ => 0x39 | .andAbx _ => 0x3D
  | .oraIzx _ => 0x01 | .oraZp _ => 0x05 | .oraImm _ => 0x09 | .oraAbs _ => 0x0D | .oraIzy _ => 0x11 | .oraZpx _ => 0x15 | .oraAby _ => 0x19 | .oraAbx _ => 0x1D
  | .eorIzx _ => 0x41 | .eorZp _ => 0x45 | .eorImm _ => 0x49 | .eorAbs _ => 0x4D | .eorIzy _ => 0x51 | .eorZpx _ => 0x55 | .eorAby _ => 0x59 | .eorAbx _ => 0x5D
  | .cmpIzx _ => 0xC1 | .cmpZp _ => 0xC5 | .cmpImm _ => 0xC9 | .cmpAbs _ => 0xCD | .cmpIzy _ => 0xD1 | .cmpZpx _ => 0xD5 | .cmpAby _ => 0xD9 | .cmpAbx _ => 0xDD
  | .cpxImm _ => 0xE0 | .cpxZp _ => 0xE4 | .cpxAbs _ => 0xEC
  | .cpyImm _ => 0xC0 | .cpyZp _ => 0xC4 | .cpyAbs _ => 0xCC
  | .bitZp _ => 0x24 | .bitAbs _ => 0x2C
  | .incZp _ => 0xE6 | .incAbs _ => 0xEE | .incZpx _ => 0xF6 | .incAbx _ => 0xFE
  | .decZp _ => 0xC6 | .decAbs _ => 0xCE | .decZpx _ => 0xD6 | .decAbx _ => 0xDE
  | .inx => 0xE8
  | .iny => 0xC8
  | .dex => 0xCA
  | .dey => 0x88
  | .aslZp _ => 0x06 | .aslAcc => 0x0A | .aslAbs _ => 0x0E | .aslZpx _ => 0x16 | .aslAbx _ => 0x1E
  | .lsrZp _ => 0x46 | .lsrAcc => 0x4A | .lsrAbs _ => 0x4E | .lsrZpx _ => 0x56 | .lsrAbx _ => 0x5E
  | .rolZp _ => 0x26 | .rolAcc => 0x2A | .rolAbs _ => 0x2E | .rolZpx _ => 0x36 | .rolAbx _ => 0x3E
  | .rorZp _ => 0x66 | .rorAcc => 0x6A | .rorAbs _ => 0x6E | .rorZpx _ => 0x76 | .rorAbx _ => 0x7E
  | .bcc _ => 0x90
  | .bcs _ => 0xB0
  | .beq _ => 0xF0
  | .bne _ => 0xD0
  | .bmi _ => 0x30
  | .bpl _ => 0x10
  | .bvc _ => 0x50
  | .bvs _ => 0x70
  | .jmpAbs _ => 0x4C | .jmpInd _ => 0x6C
  | .jsr _ => 0x20
  | .rts => 0x60
  | .brk => 0x00
  | .rti => 0x40
  | .pha => 0x48
  | .pla => 0x68
  | .php => 0x08
  | .plp => 0x28
  | .clc => 0x18
  | .sec => 0x38
  | .cli => 0x58
  | .sei => 0x78
  | .cld => 0xD8
  | .sed => 0xF8
  | .clv => 0xB8
  | .nop => 0xEA
  | .laxIzx _ => 0xA3 | .laxZp _ => 0xA7 | .laxAbs _ => 0xAF | .laxIzy _ => 0xB3 | .laxZpy _ => 0xB7 | .laxAby _ => 0xBF
  | .saxIzx _ => 0x83 | .saxZp _ => 0x87 | .saxAbs _ => 0x8F | .saxZpy _ => 0x97
  | .sloIzx _ => 0x03 | .sloZp _ => 0x07 | .sloAbs _ => 0x0F | .sloIzy _ => 0x13 | .sloZpx _ => 0x17 | .sloAby _ => 0x1B | .sloAbx _ => 0x1F
  | .rlaIzx _ => 0x23 | .rlaZp _ => 0x27 | .rlaAbs _ => 0x2F | .rlaIzy _ => 0x33 | .rlaZpx _ => 0x37 | .rlaAby _ => 0x3B | .rlaAbx _ => 0x3F
  | .sreIzx _ => 0x43 | .sreZp _ => 0x47 | .sreAbs _ => 0x4F | .sreIzy _ => 0x53 | .sreZpx _ => 0x57 | .sreAby _ => 0x5B | .sreAbx _ => 0x5F
  | .rraIzx _ => 0x63 | .rraZp _ => 0x67 | .rraAbs _ => 0x6F | .rraIzy _ => 0x73 | .rraZpx _ => 0x77 | .rraAby _ => 0x7B | .rraAbx _ => 0x7F
  | .dcpIzx _ => 0xC3 | .dcpZp _ => 0xC7 | .dcpAbs _ => 0xCF | .dcpIzy _ => 0xD3 | .dcpZpx _ => 0xD7 | .dcpAby _ => 0xDB | .dcpAbx _ => 0xDF
  | .isbIzx _ => 0xE3 | .isbZp _ => 0xE7 | .isbAbs _ => 0xEF | .isbIzy _ => 0xF3 | .isbZpx _ => 0xF7 | .isbAby _ => 0xFB | .isbAbx _ => 0xFF
  | .nopZp04 _ => 0x04 | .nopAbs0C _ => 0x0C | .nopZpx14 _ => 0x14 | .nopImp1A => 0x1A
  | .nopAbx1C _ => 0x1C | .nopZpx34 _ => 0x34 | .nopImp3A => 0x3A | .nopAbx3C _ => 0x3C
  | .nopZp44 _ => 0x44 | .nopZpx54 _ => 0x54 | .nopImp5A => 0x5A | .nopAbx5C _ => 0x5C
  | .nopZp64 _ => 0x64 | .nopZpx74 _ => 0x74 | .nopImp7A => 0x7A | .nopAbx7C _ => 0x7C
  | .nopImm80 _ => 0x80 | .nopImm82 _ => 0x82 | .nopImm89 _ => 0x89 | .nopImmC2 _ => 0xC2
  | .nopZpxD4 _ => 0xD4 | .nopImpDA => 0xDA | .nopAbxDC _ => 0xDC | .nopImmE2 _ => 0xE2
  | .sbcImmEB _ => 0xEB | .nopZpxF4 _ => 0xF4 | .nopImpFA => 0xFA | .nopAbxFC _ => 0xFC

/-- The operand of an instruction: its row's addressing mode with the operand bytes (R83, R93, R123). -/
def Instr.operand : Instr → Operand
  | .ldaIzx b => .izx b | .ldaZp b => .zp b | .ldaImm b => .imm b | .ldaAbs a => .abs a | .ldaIzy b => .izy b | .ldaZpx b => .zpx b | .ldaAby a => .aby a | .ldaAbx a => .abx a
  | .ldxImm b => .imm b | .ldxZp b => .zp b | .ldxAbs a => .abs a | .ldxZpy b => .zpy b | .ldxAby a => .aby a
  | .ldyImm b => .imm b | .ldyZp b => .zp b | .ldyAbs a => .abs a | .ldyZpx b => .zpx b | .ldyAbx a => .abx a
  | .staIzx b => .izx b | .staZp b => .zp b | .staAbs a => .abs a | .staIzy b => .izy b | .staZpx b => .zpx b | .staAby a => .aby a | .staAbx a => .abx a
  | .stxZp b => .zp b | .stxAbs a => .abs a | .stxZpy b => .zpy b
  | .styZp b => .zp b | .styAbs a => .abs a | .styZpx b => .zpx b
  | .tax => .imp
  | .tay => .imp
  | .txa => .imp
  | .tya => .imp
  | .tsx => .imp
  | .txs => .imp
  | .adcIzx b => .izx b | .adcZp b => .zp b | .adcImm b => .imm b | .adcAbs a => .abs a | .adcIzy b => .izy b | .adcZpx b => .zpx b | .adcAby a => .aby a | .adcAbx a => .abx a
  | .sbcIzx b => .izx b | .sbcZp b => .zp b | .sbcImm b => .imm b | .sbcAbs a => .abs a | .sbcIzy b => .izy b | .sbcZpx b => .zpx b | .sbcAby a => .aby a | .sbcAbx a => .abx a
  | .andIzx b => .izx b | .andZp b => .zp b | .andImm b => .imm b | .andAbs a => .abs a | .andIzy b => .izy b | .andZpx b => .zpx b | .andAby a => .aby a | .andAbx a => .abx a
  | .oraIzx b => .izx b | .oraZp b => .zp b | .oraImm b => .imm b | .oraAbs a => .abs a | .oraIzy b => .izy b | .oraZpx b => .zpx b | .oraAby a => .aby a | .oraAbx a => .abx a
  | .eorIzx b => .izx b | .eorZp b => .zp b | .eorImm b => .imm b | .eorAbs a => .abs a | .eorIzy b => .izy b | .eorZpx b => .zpx b | .eorAby a => .aby a | .eorAbx a => .abx a
  | .cmpIzx b => .izx b | .cmpZp b => .zp b | .cmpImm b => .imm b | .cmpAbs a => .abs a | .cmpIzy b => .izy b | .cmpZpx b => .zpx b | .cmpAby a => .aby a | .cmpAbx a => .abx a
  | .cpxImm b => .imm b | .cpxZp b => .zp b | .cpxAbs a => .abs a
  | .cpyImm b => .imm b | .cpyZp b => .zp b | .cpyAbs a => .abs a
  | .bitZp b => .zp b | .bitAbs a => .abs a
  | .incZp b => .zp b | .incAbs a => .abs a | .incZpx b => .zpx b | .incAbx a => .abx a
  | .decZp b => .zp b | .decAbs a => .abs a | .decZpx b => .zpx b | .decAbx a => .abx a
  | .inx => .imp
  | .iny => .imp
  | .dex => .imp
  | .dey => .imp
  | .aslZp b => .zp b | .aslAcc => .acc | .aslAbs a => .abs a | .aslZpx b => .zpx b | .aslAbx a => .abx a
  | .lsrZp b => .zp b | .lsrAcc => .acc | .lsrAbs a => .abs a | .lsrZpx b => .zpx b | .lsrAbx a => .abx a
  | .rolZp b => .zp b | .rolAcc => .acc | .rolAbs a => .abs a | .rolZpx b => .zpx b | .rolAbx a => .abx a
  | .rorZp b => .zp b | .rorAcc => .acc | .rorAbs a => .abs a | .rorZpx b => .zpx b | .rorAbx a => .abx a
  | .bcc b => .rel b
  | .bcs b => .rel b
  | .beq b => .rel b
  | .bne b => .rel b
  | .bmi b => .rel b
  | .bpl b => .rel b
  | .bvc b => .rel b
  | .bvs b => .rel b
  | .jmpAbs a => .abs a | .jmpInd a => .ind a
  | .jsr a => .abs a
  | .rts => .imp
  | .brk => .imp
  | .rti => .imp
  | .pha => .imp
  | .pla => .imp
  | .php => .imp
  | .plp => .imp
  | .clc => .imp
  | .sec => .imp
  | .cli => .imp
  | .sei => .imp
  | .cld => .imp
  | .sed => .imp
  | .clv => .imp
  | .nop => .imp
  | .laxIzx b => .izx b | .laxZp b => .zp b | .laxAbs a => .abs a | .laxIzy b => .izy b | .laxZpy b => .zpy b | .laxAby a => .aby a
  | .saxIzx b => .izx b | .saxZp b => .zp b | .saxAbs a => .abs a | .saxZpy b => .zpy b
  | .sloIzx b => .izx b | .sloZp b => .zp b | .sloAbs a => .abs a | .sloIzy b => .izy b | .sloZpx b => .zpx b | .sloAby a => .aby a | .sloAbx a => .abx a
  | .rlaIzx b => .izx b | .rlaZp b => .zp b | .rlaAbs a => .abs a | .rlaIzy b => .izy b | .rlaZpx b => .zpx b | .rlaAby a => .aby a | .rlaAbx a => .abx a
  | .sreIzx b => .izx b | .sreZp b => .zp b | .sreAbs a => .abs a | .sreIzy b => .izy b | .sreZpx b => .zpx b | .sreAby a => .aby a | .sreAbx a => .abx a
  | .rraIzx b => .izx b | .rraZp b => .zp b | .rraAbs a => .abs a | .rraIzy b => .izy b | .rraZpx b => .zpx b | .rraAby a => .aby a | .rraAbx a => .abx a
  | .dcpIzx b => .izx b | .dcpZp b => .zp b | .dcpAbs a => .abs a | .dcpIzy b => .izy b | .dcpZpx b => .zpx b | .dcpAby a => .aby a | .dcpAbx a => .abx a
  | .isbIzx b => .izx b | .isbZp b => .zp b | .isbAbs a => .abs a | .isbIzy b => .izy b | .isbZpx b => .zpx b | .isbAby a => .aby a | .isbAbx a => .abx a
  | .nopZp04 b => .zp b | .nopAbs0C a => .abs a | .nopZpx14 b => .zpx b | .nopImp1A => .imp
  | .nopAbx1C a => .abx a | .nopZpx34 b => .zpx b | .nopImp3A => .imp | .nopAbx3C a => .abx a
  | .nopZp44 b => .zp b | .nopZpx54 b => .zpx b | .nopImp5A => .imp | .nopAbx5C a => .abx a
  | .nopZp64 b => .zp b | .nopZpx74 b => .zpx b | .nopImp7A => .imp | .nopAbx7C a => .abx a
  | .nopImm80 b => .imm b | .nopImm82 b => .imm b | .nopImm89 b => .imm b | .nopImmC2 b => .imm b
  | .nopZpxD4 b => .zpx b | .nopImpDA => .imp | .nopAbxDC a => .abx a | .nopImmE2 b => .imm b
  | .sbcImmEB b => .imm b | .nopZpxF4 b => .zpx b | .nopImpFA => .imp | .nopAbxFC a => .abx a

/-- The mnemonic of an instruction (R86, R87, R89). -/
def Instr.mnemonic : Instr → Mnemonic
  | .ldaIzx _ | .ldaZp _ | .ldaImm _ | .ldaAbs _ | .ldaIzy _ | .ldaZpx _ | .ldaAby _ | .ldaAbx _ => .LDA
  | .ldxImm _ | .ldxZp _ | .ldxAbs _ | .ldxZpy _ | .ldxAby _ => .LDX
  | .ldyImm _ | .ldyZp _ | .ldyAbs _ | .ldyZpx _ | .ldyAbx _ => .LDY
  | .staIzx _ | .staZp _ | .staAbs _ | .staIzy _ | .staZpx _ | .staAby _ | .staAbx _ => .STA
  | .stxZp _ | .stxAbs _ | .stxZpy _ => .STX
  | .styZp _ | .styAbs _ | .styZpx _ => .STY
  | .tax => .TAX
  | .tay => .TAY
  | .txa => .TXA
  | .tya => .TYA
  | .tsx => .TSX
  | .txs => .TXS
  | .adcIzx _ | .adcZp _ | .adcImm _ | .adcAbs _ | .adcIzy _ | .adcZpx _ | .adcAby _ | .adcAbx _ => .ADC
  | .sbcIzx _ | .sbcZp _ | .sbcImm _ | .sbcAbs _ | .sbcIzy _ | .sbcZpx _ | .sbcAby _ | .sbcAbx _ => .SBC
  | .andIzx _ | .andZp _ | .andImm _ | .andAbs _ | .andIzy _ | .andZpx _ | .andAby _ | .andAbx _ => .AND
  | .oraIzx _ | .oraZp _ | .oraImm _ | .oraAbs _ | .oraIzy _ | .oraZpx _ | .oraAby _ | .oraAbx _ => .ORA
  | .eorIzx _ | .eorZp _ | .eorImm _ | .eorAbs _ | .eorIzy _ | .eorZpx _ | .eorAby _ | .eorAbx _ => .EOR
  | .cmpIzx _ | .cmpZp _ | .cmpImm _ | .cmpAbs _ | .cmpIzy _ | .cmpZpx _ | .cmpAby _ | .cmpAbx _ => .CMP
  | .cpxImm _ | .cpxZp _ | .cpxAbs _ => .CPX
  | .cpyImm _ | .cpyZp _ | .cpyAbs _ => .CPY
  | .bitZp _ | .bitAbs _ => .BIT
  | .incZp _ | .incAbs _ | .incZpx _ | .incAbx _ => .INC
  | .decZp _ | .decAbs _ | .decZpx _ | .decAbx _ => .DEC
  | .inx => .INX
  | .iny => .INY
  | .dex => .DEX
  | .dey => .DEY
  | .aslZp _ | .aslAcc | .aslAbs _ | .aslZpx _ | .aslAbx _ => .ASL
  | .lsrZp _ | .lsrAcc | .lsrAbs _ | .lsrZpx _ | .lsrAbx _ => .LSR
  | .rolZp _ | .rolAcc | .rolAbs _ | .rolZpx _ | .rolAbx _ => .ROL
  | .rorZp _ | .rorAcc | .rorAbs _ | .rorZpx _ | .rorAbx _ => .ROR
  | .bcc _ => .BCC
  | .bcs _ => .BCS
  | .beq _ => .BEQ
  | .bne _ => .BNE
  | .bmi _ => .BMI
  | .bpl _ => .BPL
  | .bvc _ => .BVC
  | .bvs _ => .BVS
  | .jmpAbs _ | .jmpInd _ => .JMP
  | .jsr _ => .JSR
  | .rts => .RTS
  | .brk => .BRK
  | .rti => .RTI
  | .pha => .PHA
  | .pla => .PLA
  | .php => .PHP
  | .plp => .PLP
  | .clc => .CLC
  | .sec => .SEC
  | .cli => .CLI
  | .sei => .SEI
  | .cld => .CLD
  | .sed => .SED
  | .clv => .CLV
  | .nop => .NOP
  | .laxIzx _ | .laxZp _ | .laxAbs _ | .laxIzy _ | .laxZpy _ | .laxAby _ => .LAX
  | .saxIzx _ | .saxZp _ | .saxAbs _ | .saxZpy _ => .SAX
  | .sloIzx _ | .sloZp _ | .sloAbs _ | .sloIzy _ | .sloZpx _ | .sloAby _ | .sloAbx _ => .SLO
  | .rlaIzx _ | .rlaZp _ | .rlaAbs _ | .rlaIzy _ | .rlaZpx _ | .rlaAby _ | .rlaAbx _ => .RLA
  | .sreIzx _ | .sreZp _ | .sreAbs _ | .sreIzy _ | .sreZpx _ | .sreAby _ | .sreAbx _ => .SRE
  | .rraIzx _ | .rraZp _ | .rraAbs _ | .rraIzy _ | .rraZpx _ | .rraAby _ | .rraAbx _ => .RRA
  | .dcpIzx _ | .dcpZp _ | .dcpAbs _ | .dcpIzy _ | .dcpZpx _ | .dcpAby _ | .dcpAbx _ => .DCP
  | .isbIzx _ | .isbZp _ | .isbAbs _ | .isbIzy _ | .isbZpx _ | .isbAby _ | .isbAbx _ => .ISB
  | .nopZp04 _ | .nopAbs0C _ | .nopZpx14 _ | .nopImp1A | .nopAbx1C _ | .nopZpx34 _ | .nopImp3A | .nopAbx3C _ | .nopZp44 _ => .NOP
  | .nopZpx54 _ | .nopImp5A | .nopAbx5C _ | .nopZp64 _ | .nopZpx74 _ | .nopImp7A | .nopAbx7C _ | .nopImm80 _ | .nopImm82 _ => .NOP
  | .nopImm89 _ | .nopImmC2 _ | .nopZpxD4 _ | .nopImpDA | .nopAbxDC _ | .nopImmE2 _ | .nopZpxF4 _ | .nopImpFA | .nopAbxFC _ => .NOP
  | .sbcImmEB _ => .SBC

/-- The bytes of an instruction: its opcode, then its operand bytes, low byte first (R80, R81). -/
def encode (i : Instr) : List Byte := i.opcode :: i.operand.bytes

/-- The instruction's length in bytes (R82). -/
def Instr.length (i : Instr) : Nat := i.operand.mode.length

/-! ### The host's numbering of an instruction's bits -/

/-- The three bytes of an instruction given as one number: bits 7:0 are the opcode, 15:8 and 23:16 the bytes after
it (R81), and every bit from `nbits` on is 0. -/
def tableWordBytes (nbits w : Nat) : List Byte :=
  let v := w % 2 ^ nbits
  [BitVec.ofNat 8 v, BitVec.ofNat 8 (v / 256), BitVec.ofNat 8 (v / 65536)]

/-- The instruction the decoder reads from a table row's bits. The table lists the optional opcodes too, so it is
read with `EXT_UNDOC` true. -/
def decodeTableWord (nbits w : Nat) : Option Instr :=
  match decode true (tableWordBytes nbits w) with
  | .decoded i _ => some i
  | .rejected _ => none

end Sys2Proof
end

