-- ==== Sys2Proof/Machine/Flags.lean ====
section
/-! DEFINITION. The status byte's flags (10_state.md R19 to R27) and the `6502_alu` (41_alu.md): every arithmetic,
logic and shift function with its flag outputs, and the two packings of the status byte for the stack (R148). -/

namespace Sys2Proof.Machine

/-- The eight flags of `P` (R19). -/
inductive Flag where
  | C | Z | I | D | B | R | V | S
  deriving DecidableEq, Repr

/-- The bit of `P` that holds a flag (R19, D2). -/
def Flag.bit : Flag → Nat
  | .C => 0 | .Z => 1 | .I => 2 | .D => 3 | .B => 4 | .R => 5 | .V => 6 | .S => 7

/-- The mask of a flag (R19). -/
def Flag.mask (f : Flag) : Byte := (1 : Byte) <<< f.bit

/-- `P.f`: a flag of the status byte `p` (R6). -/
def getFlag (p : Byte) (f : Flag) : Bool := p.getLsbD f.bit

/-- `P.f <- v`: writes one bit of the status byte and leaves the others (R6). -/
def putFlag (p : Byte) (f : Flag) (v : Bool) : Byte := if v then p ||| f.mask else p &&& ~~~f.mask

/-- `SetZS(r)` on the status byte: Z iff the byte is 0, S is its bit 7 (R131). -/
def putZS (p r : Byte) : Byte := putFlag (putFlag p .Z (r == 0)) .S r.msb

/-- The Carry as the number 0 or 1. -/
def carryNat (c : Bool) : Nat := if c then 1 else 0

/-- What an addition or subtraction returns (R132, R133). -/
structure ArithOut where
  r : Byte
  c : Bool
  v : Bool
  z : Bool
  s : Bool
  deriving DecidableEq, Repr

/-- What a shift or rotate returns (R138 to R141). -/
structure ShiftOut where
  r : Byte
  c : Bool
  z : Bool
  s : Bool
  deriving DecidableEq, Repr

/-- What a compare returns (R134). -/
structure CompareOut where
  c : Bool
  z : Bool
  s : Bool
  deriving DecidableEq, Repr

/-- What a logic function, an increment, a decrement or a pass returns (R135 to R137, R142, R143, R145). -/
structure LogicOut where
  r : Byte
  z : Bool
  s : Bool
  deriving DecidableEq, Repr

/-- What the bit test returns (R144). -/
structure BitOut where
  z : Bool
  v : Bool
  s : Bool
  deriving DecidableEq, Repr

/-- `ADD(a, m, c)` (R132). -/
def addF (a m : Byte) (c : Bool) : ArithOut :=
  let t := a.toNat + m.toNat + carryNat c
  let r := BitVec.ofNat 8 t
  ⟨r, decide (255 < t), a.msb == m.msb && r.msb != a.msb, r == 0, r.msb⟩

/-- `SUB(a, m, c)`; `c` means "no borrow" (R133). -/
def subF (a m : Byte) (c : Bool) : ArithOut :=
  let t : Int := a.toNat - m.toNat - (1 - carryNat c)
  let r := BitVec.ofInt 8 t
  ⟨r, decide (0 ≤ t), a.msb != m.msb && r.msb != a.msb, r == 0, r.msb⟩

/-- `CMPF(r, m)` (R134). -/
def compareF (r m : Byte) : CompareOut :=
  let t := r - m
  ⟨decide (m.toNat ≤ r.toNat), t == 0, t.msb⟩

/-- A result byte with its `ZS` check (R131): `PASS(v)` (R145), and the last line of the functions below. -/
def passF (r : Byte) : LogicOut := ⟨r, r == 0, r.msb⟩

/-- `ANDF(a, m)` (R135). -/
def andF (a m : Byte) : LogicOut := passF (a &&& m)

/-- `ORF(a, m)` (R136). -/
def orF (a m : Byte) : LogicOut := passF (a ||| m)

/-- `XORF(a, m)` (R137). -/
def xorF (a m : Byte) : LogicOut := passF (a ^^^ m)

/-- `INCF(v)` (R142). -/
def incF (v : Byte) : LogicOut := passF (v + 1)

/-- `DECF(v)` (R143). -/
def decF (v : Byte) : LogicOut := passF (v - 1)

/-- `ASLF(v)` (R138): Carry is bit 7, bit 0 of the result is 0. -/
def aslF (v : Byte) : ShiftOut :=
  let r := v <<< 1
  ⟨r, v.getLsbD 7, r == 0, r.msb⟩

/-- `LSRF(v)` (R139): Carry is bit 0, bit 7 of the result is 0. -/
def lsrF (v : Byte) : ShiftOut :=
  let r := v >>> 1
  ⟨r, v.getLsbD 0, r == 0, r.msb⟩

/-- `ROLF(v, c)` (R140): Carry is bit 7, bit 0 of the result is the old Carry. -/
def rolF (v : Byte) (c : Bool) : ShiftOut :=
  let r := v <<< 1 ||| (if c then 0x01 else 0x00)
  ⟨r, v.getLsbD 7, r == 0, r.msb⟩

/-- `RORF(v, c)` (R141): Carry is bit 0, bit 7 of the result is the old Carry. -/
def rorF (v : Byte) (c : Bool) : ShiftOut :=
  let r := v >>> 1 ||| (if c then 0x80 else 0x00)
  ⟨r, v.getLsbD 0, r == 0, r.msb⟩

/-- `BITF(a, m)` (R144): Z from `a AND m`, V and S from bits 6 and 7 of `m`. -/
def bitF (a m : Byte) : BitOut := ⟨a &&& m == 0, m.getLsbD 6, m.getLsbD 7⟩

/-- `PushImage(p)`: Break and Reserved forced to 1 in the pushed copy (R148). -/
def pushImage (p : Byte) : Byte := p ||| 0x30

/-- `PullImage(v)`: Reserved forced to 1, Break forced to 0 (R148). -/
def pullImage (v : Byte) : Byte := (v ||| 0x20) &&& 0xEF

/-- Writes the flags an addition or subtraction returns: C, V, Z, S. -/
def putArith (p : Byte) (o : ArithOut) : Byte :=
  putFlag (putFlag (putFlag (putFlag p .C o.c) .V o.v) .Z o.z) .S o.s

/-- Writes the flags a shift or rotate returns: C, Z, S. -/
def putShift (p : Byte) (o : ShiftOut) : Byte := putFlag (putFlag (putFlag p .C o.c) .Z o.z) .S o.s

/-- Writes the flags a compare returns: C, Z, S. -/
def putCompare (p : Byte) (o : CompareOut) : Byte := putFlag (putFlag (putFlag p .C o.c) .Z o.z) .S o.s

/-- Writes the flags a logic function returns: Z, S. -/
def putLogic (p : Byte) (o : LogicOut) : Byte := putFlag (putFlag p .Z o.z) .S o.s

/-- Writes the flags the bit test returns: Z, V, S. -/
def putBit (p : Byte) (o : BitOut) : Byte := putFlag (putFlag (putFlag p .Z o.z) .V o.v) .S o.s

end Sys2Proof.Machine
end

