-- ==== Sys2Proof/Config.lean ====
section
/-! DEFINITION. The constants of the core (rule R5's table and rule R68): sizes and vector addresses.
What a launch chooses (`PRG`, `PRG_UNITS`, `MAPPER_NUMBER`, the selector, `RAM_INIT`, `SRAM_INIT`,
`PC_OVERRIDE`, `EXT_UNDOC`) is an argument of `Machine.init` (Machine/Init.lean), not a constant. -/

namespace Sys2Proof.Config

/-- Bytes in a bank of the address space (R41): 8 KB. -/
def bankSize : Nat := 8192

/-- Bytes of system RAM (R28): 2 KB. -/
def ramSize : Nat := 2048

/-- Bytes of save RAM (R29): 8 KB. -/
def saveRamSize : Nat := 8192

/-- Bytes in one slice of the program ROM (the glossary's "slice", R31): 8 KB. -/
def sliceSize : Nat := 8192

/-- Bytes in one program-ROM unit (R56): 16 KB. -/
def unitSize : Nat := 16384

/-- Slices in one program-ROM unit: a selector's slice index is below `slicesPerUnit * PRG_UNITS` (R52). -/
def slicesPerUnit : Nat := 2

/-- `VEC_NMI` (R68): read by nothing in this core. -/
def vecNmi : Word := 0xFFFA

/-- `VEC_RESET` (R68): read by `CpuInit` only. -/
def vecReset : Word := 0xFFFC

/-- `VEC_IRQ` (R68): the interrupt and break vector, read by BRK only. -/
def vecIrq : Word := 0xFFFE

/-- The page of the stack (R17): a stack byte is at `0x0100 + SP`. -/
def stackPage : Word := 0x0100

end Sys2Proof.Config
end

