-- ==== Sys2Proof/Machine/Memory.lean ====
section
/-! DEFINITION. One physical memory as plain data: a list of (index, byte) cells in one canonical form. System RAM
(R28), save RAM (R29) and the program-ROM image (R30) are one each; a cell's key is the byte's index in its memory.
DESIGN CHOICE (notes/assumptions/1.md): a cell that is not listed reads as 0x00. -/

namespace Sys2Proof.Machine

/-- A memory: the cells that differ from `Memory.unlisted`, indexes strictly rising. -/
abbrev Memory := List Host.Cell

/-- What an unlisted cell reads as. DESIGN CHOICE: the spec leaves `RAM_INIT` and `SRAM_INIT` open (R304, D9) and
makes `PRG` an input (R30); any contents are expressible by listing cells. -/
def Memory.unlisted : Byte := 0x00

/-- The byte at index `i`. -/
def Memory.read : Memory → Nat → Byte
  | [], _ => Memory.unlisted
  | (k, v) :: rest, i => if i = k then v else Memory.read rest i

/-- Removes the cell at index `i`, so that it reads as `Memory.unlisted`. -/
def Memory.erase : Memory → Nat → Memory
  | [], _ => []
  | (k, v) :: rest, i => if i = k then Memory.erase rest i else (k, v) :: Memory.erase rest i

/-- Lists the byte `v` at index `i`, in its place in the rising order. -/
def Memory.insert : Memory → Nat → Byte → Memory
  | [], i, v => [(i, v)]
  | (k, w) :: rest, i, v =>
    if i < k then (i, v) :: (k, w) :: rest
    else if i = k then (i, v) :: rest
    else (k, w) :: Memory.insert rest i v

/-- Stores the byte `v` at index `i`, keeping the canonical form. -/
def Memory.write (m : Memory) (i : Nat) (v : Byte) : Memory :=
  if v = Memory.unlisted then Memory.erase m i else Memory.insert m i v

/-- Whether indexes are strictly rising from `lo` on and no cell holds `Memory.unlisted`. -/
def Memory.wfFrom : Nat → Memory → Bool
  | _, [] => true
  | lo, (k, v) :: rest => decide (lo ≤ k) && v != Memory.unlisted && Memory.wfFrom (k + 1) rest

/-- The canonical form: strictly rising indexes, no cell equal to what an unlisted cell reads as. -/
def Memory.wf (m : Memory) : Bool := Memory.wfFrom 0 m

/-- Whether every listed index is below `n`, the memory's size in bytes. -/
def Memory.within (n : Nat) (m : Memory) : Bool := m.all fun c => decide (c.1 < n)

end Sys2Proof.Machine
end

