-- ==== Sys2Proof/Machine/State.lean ====
section
/-! DEFINITION. The machine's state as plain data (10_state.md; R8 lists what it holds), the faults (R270) and the
state after reset (R36). Each field's docstring names its rule; INVENTORY.md lists them with their reset values. -/

namespace Sys2Proof.Machine

/-- An entry of the bank table (R31): nothing, system RAM, save RAM, or slice `slice` of the program ROM with its
writable bit. -/
inductive BankEntry where
  | unassigned
  | sysRam
  | saveRam
  | prgSlice (slice : Nat) (writable : Bool)
  deriving DecidableEq, Repr

/-- Whether a faulting access was a read or a write (R270). -/
inductive AccessKind where
  | read
  | write
  deriving DecidableEq, Repr

/-- Why an initialisation was refused (R270, R273). -/
inductive ConfigReason where
  | unsupportedPrgUnits (n : Nat)
  | noSelectorForMapper (n : Nat)
  deriving DecidableEq, Repr

/-- The three fault classes with the values they record (R270); what the fault latch holds (R34). -/
inductive FaultRecord where
  | decodeError (op : Byte) (pc : Word)
  | addressingError (addr : Word) (kind : AccessKind)
  | configurationError (reason : ConfigReason)
  deriving DecidableEq, Repr

/-- The state of the core (R8, R13, R28 to R34), with the two launch parameters a running machine still depends on. -/
structure State where
  /-- `PC`, the program counter (R18). -/
  pc : Word
  /-- `A`, the accumulator (R14). -/
  a : Byte
  /-- `X`, the X index (R15). -/
  x : Byte
  /-- `Y`, the Y index (R16). -/
  y : Byte
  /-- `SP`, the stack pointer (R17). -/
  sp : Byte
  /-- `P`, the status byte (R19): bits S V R B D I Z C from bit 7 down. -/
  p : Byte
  /-- System RAM (R28), indexes 0..2047. -/
  ram : Memory
  /-- Save RAM (R29), indexes 0..8191. -/
  sram : Memory
  /-- The program-ROM image `PRG` (R30), indexes 0..`prgUnits`*16384-1. -/
  prg : Memory
  /-- `PRG_UNITS`, the image's size in 16 KB units: a launch parameter (R5, R57), constant while the machine runs. -/
  prgUnits : Nat
  /-- `BANK[0..7]`, the bank table (R31). -/
  bank : Vector BankEntry 8
  /-- `EXT_UNDOC`: a launch parameter (R5, R89), constant while the machine runs. -/
  extUndoc : Bool
  /-- `FAULT`, the fault latch (R34). -/
  fault : Option FaultRecord
  deriving DecidableEq, Repr

/-- Why a step ends with no next state. Each constructor carries what the spec records (R270) and the state the fault
leaves, its latch set (R34, R275). The source calls that state undefined beyond the fault, so no statement may rest
on it. -/
inductive Fault where
  /-- Raised by `step` when the opcode fetched decodes to UNKNOWN (R271). Safe: the spec names this fault. -/
  | decodeError (op : Byte) (pc : Word) (left : State)
  /-- Raised by any read or write of an address whose bank is unassigned (R272). Safe: the spec names this fault. -/
  | addressingError (addr : Word) (kind : AccessKind) (left : State)
  /-- Raised by no step of a machine that `init` built; a step repeats it where the latch already holds it (R273,
  R274). Safe: no machine exists after it. -/
  | configurationError (reason : ConfigReason) (left : State)
  deriving DecidableEq, Repr

/-- Why an instruction has no meaning. -/
inductive Refusal where
  /-- The instruction is not modelled yet. Raised by no arm of `exec`: every instruction has its meaning. Safe. -/
  | notModelled (mnemonic : String)
  deriving DecidableEq, Repr

/-- The state after a successful initialisation (R36): the NROM selector with one unit (R53), `EXT_UNDOC` false,
`PC_OVERRIDE` absent. DESIGN CHOICE (notes/assumptions/1.md and 2.md): the cartridge image, `RAM_INIT` and
`SRAM_INIT` list nothing, so every byte reads 0x00 and the reset vector's word, which `PC` takes, is 0x0000. -/
def State.reset : State where
  pc := 0x0000
  a := 0x00
  x := 0x00
  y := 0x00
  sp := 0xFD
  p := 0x34
  ram := []
  sram := []
  prg := []
  prgUnits := 1
  bank := #v[.sysRam, .unassigned, .unassigned, .saveRam,
    .prgSlice 0 false, .prgSlice 1 false, .prgSlice 0 false, .prgSlice 1 false]
  extUndoc := false
  fault := none

end Sys2Proof.Machine
end

