-- ==== Sys2Proof/Machine/Ops.lean ====
section
/-! DEFINITION. The named operations every instruction is written over: register updates, the banked memory arbiter
(20_memory.md), the stack (R17), instruction fetch (R6, R18), the break entry and the return from it (60_exceptions.md
section 3), and the end of a run in a next state or a fault. -/

namespace Sys2Proof.Machine

/-! ### Register and memory updates -/

/-- `PC <- v`. -/
def State.setPc (s : State) (v : Word) : State := { s with pc := v }
/-- `A <- v`. -/
def State.setA (s : State) (v : Byte) : State := { s with a := v }
/-- `X <- v`. -/
def State.setX (s : State) (v : Byte) : State := { s with x := v }
/-- `Y <- v`. -/
def State.setY (s : State) (v : Byte) : State := { s with y := v }
/-- `SP <- v`. -/
def State.setSp (s : State) (v : Byte) : State := { s with sp := v }
/-- `P <- v`. -/
def State.setP (s : State) (v : Byte) : State := { s with p := v }
/-- Replaces the contents of system RAM. -/
def State.setRam (s : State) (m : Memory) : State := { s with ram := m }
/-- Replaces the contents of save RAM. -/
def State.setSram (s : State) (m : Memory) : State := { s with sram := m }
/-- Replaces the contents of the program ROM. -/
def State.setPrg (s : State) (m : Memory) : State := { s with prg := m }
/-- Sets the fault latch (R34). -/
def State.setFault (s : State) (f : Option FaultRecord) : State := { s with fault := f }
/-- Sets the launch parameter `EXT_UNDOC`. -/
def State.setExtUndoc (s : State) (e : Bool) : State := { s with extUndoc := e }

/-- `P.f`: a flag of the state's status byte. -/
def State.flag (s : State) (f : Flag) : Bool := getFlag s.p f

/-! ### The banked memory arbiter -/

/-- `bank(addr) = addr[15:13]` (R41). -/
def bankIndex (addr : Word) : Nat := addr.toNat / Config.bankSize

/-- `offset(addr) = addr[12:0]` (R41). -/
def bankOffset (addr : Word) : Nat := addr.toNat % Config.bankSize

theorem bankIndex_lt (addr : Word) : bankIndex addr < 8 := by
  have := addr.isLt
  unfold bankIndex Config.bankSize
  omega

/-- `BANK[addr >> 13]` (R41, R43). -/
def State.bankAt (s : State) (addr : Word) : BankEntry := s.bank[bankIndex addr]'(bankIndex_lt addr)

/-- A physical byte: of system RAM, of save RAM, or of the program ROM (R42). -/
inductive Place where
  | ram (i : Nat)
  | saveRam (i : Nat)
  | prg (i : Nat)
  deriving DecidableEq, Repr

/-- Which physical byte an offset of a bank reaches, none if the bank is unassigned (R43, R45 to R47). -/
def BankEntry.place : BankEntry → Nat → Option Place
  | .unassigned, _ => none
  | .sysRam, o => some (.ram (o % Config.ramSize))
  | .saveRam, o => some (.saveRam o)
  | .prgSlice k _, o => some (.prg (k * Config.sliceSize + o))

/-- Whether a store through a bank changes the byte it reaches (R44, R48). -/
def BankEntry.writable : BankEntry → Bool
  | .unassigned => false
  | .sysRam | .saveRam => true
  | .prgSlice _ w => w

/-- The physical byte behind an address, none where nothing is assigned (R41 to R50). -/
def State.locate (s : State) (addr : Word) : Option Place := (s.bankAt addr).place (bankOffset addr)

/-- The byte at a place (R43). -/
def State.readPlace (s : State) : Place → Byte
  | .ram i => s.ram.read i
  | .saveRam i => s.sram.read i
  | .prg i => s.prg.read i

/-- Replaces the byte at a place. -/
def State.writePlace (s : State) (v : Byte) : Place → State
  | .ram i => s.setRam (s.ram.write i v)
  | .saveRam i => s.setSram (s.sram.write i v)
  | .prg i => s.setPrg (s.prg.write i v)

/-- The byte at an address, none where the access faults (R43). The host's read between steps is this one (R70). -/
def State.read (s : State) (addr : Word) : Option Byte := (s.locate addr).map s.readPlace

/-- The state after a store to an address, none where the access faults (R44); a store to a slice that is not writable
changes nothing (R48). -/
def State.write (s : State) (addr : Word) (v : Byte) : Option State :=
  (s.locate addr).map fun place => if (s.bankAt addr).writable then s.writePlace v place else s

/-! ### Runs: statements in order, ended early by a fault -/

/-- A statement sequence of the spec's pseudocode: it ends with a value and the next state, or with a fault and the
state of R275 (every write before the faulting access done, none after it). -/
abbrev M (α : Type) := EStateM FaultRecord State α

/-- Reads something of the state. -/
def look {α : Type} (f : State → α) : M α := fun s => .ok (f s) s

/-- Changes the state. -/
def update (f : State → State) : M Unit := fun s => .ok () (f s)

/-- `raise`: ends the step with a fault (R6). -/
def raise {α : Type} (r : FaultRecord) : M α := fun s => .error r s

/-- `MemRead(addr, 1)` (R43, R49, R50). -/
def memRead (addr : Word) : M Byte := fun s =>
  match s.read addr with
  | some v => .ok v s
  | none => .error (.addressingError addr .read) s

/-- `MemWrite(addr, 1, v)` (R44, R48 to R50). -/
def memWrite (addr : Word) (v : Byte) : M Unit := fun s =>
  match s.write addr v with
  | some t => .ok () t
  | none => .error (.addressingError addr .write) s

/-- `MemRead16(lo_addr, hi_addr)`: the low byte first (R6, R60). -/
def memRead16 (loAddr hiAddr : Word) : M Word := do
  let lo ← memRead loAddr
  let hi ← memRead hiAddr
  return wordOf hi lo

/-- `Fetch8()`: the byte at PC, then PC + 1 mod 65536 (R6, R18). -/
def fetch8 : M Byte := do
  let v ← memRead (← look State.pc)
  update fun s => s.setPc (s.pc + 1)
  return v

/-- `P.f <- v`. -/
def setFlag (f : Flag) (v : Bool) : M Unit := update fun s => s.setP (putFlag s.p f v)

/-- `SetZS(r)` (R131). -/
def setZS (r : Byte) : M Unit := update fun s => s.setP (putZS s.p r)

/-- `PC <- v`. -/
def setPC (v : Word) : M Unit := update fun s => s.setPc v

/-! ### The stack (R17) -/

/-- The address `SP` names: `0x0100 + SP`. -/
def stackAddr (sp : Byte) : Word := Config.stackPage + zext16 sp

/-- `Push(v)`: store, then decrement SP mod 256 (R17). -/
def push (v : Byte) : M Unit := do
  memWrite (stackAddr (← look State.sp)) v
  update fun s => s.setSp (s.sp - 1)

/-- `Pop()`: increment SP mod 256, then load (R17). -/
def pop : M Byte := do
  update fun s => s.setSp (s.sp + 1)
  memRead (stackAddr (← look State.sp))

/-- Pushes a word high byte first, so that it lies little-endian in memory (R58). -/
def pushWord (w : Word) : M Unit := do
  push (hiByte w)
  push (loByte w)

/-- Pulls a word, low byte first. -/
def popWord : M Word := do
  let lo ← pop
  let hi ← pop
  return wordOf hi lo

/-! ### Taking an exception and returning from it (R278, R279) -/

/-- Entry through a vector (R222, R278): the return address high byte first, then the status byte with Break and
Reserved set, go on the stack; I is set; PC takes the word at the vector, low byte first. -/
def enterVector (returnAddr vector : Word) : M Unit := do
  pushWord returnAddr
  push (pushImage (← look State.p))
  setFlag .I true
  setPC (← memRead16 vector (vector + 1))

/-- Return (R223, R279): the status byte is pulled with Reserved 1 and Break 0, then PC, low byte first, as it is. -/
def returnFromVector : M Unit := do
  let v ← pop
  update fun s => s.setP (pullImage v)
  setPC (← popWord)

/-! ### The end of an instruction -/

/-- The fault a record stands for, with the state it leaves (R270, R275). -/
def FaultRecord.toFault : FaultRecord → State → Fault
  | .decodeError op pc, s => .decodeError op pc s
  | .addressingError addr kind, s => .addressingError addr kind s
  | .configurationError reason, s => .configurationError reason s

/-- The fault of a raise: the state it leaves has its latch set (R34, R274, R275). -/
def latched (r : FaultRecord) (s : State) : Fault := r.toFault (s.setFault (some r))

/-- Runs a statement sequence to the outcome of a step: the next state, or the fault it raised (R9, R274). -/
def finish (m : M Unit) (s : State) : Host.Outcome State Fault Refusal :=
  match m s with
  | .ok _ t => .next t
  | .error r t => .fault (latched r t)

end Sys2Proof.Machine
end

