-- ==== Sys2Proof/Machine/Operands.lean ====
section
/-! DEFINITION. The `address_mode_unit` (40_addressing.md): the effective address of every operand form, and the
reads and writes of an operand. The operand bytes are those the instruction carries: `Step` has fetched them, and on
entry PC is the address of the next instruction (R111, R307). -/

namespace Sys2Proof.Machine

/-- The word at a zero-page pointer, its second byte taken from the zero page too (R119, R120). -/
def zeroPagePointer (z : Byte) : M Word := memRead16 (zext16 z) (zext16 (z + 1))

/-- The second byte's address of an indirect-JMP pointer: the next byte of the same page (R118). -/
def samePageNext (p : Word) : Word := wordOf (hiByte p) (loByte p + 1)

/-- `Resolve(mode)` after the operand bytes are fetched: the effective address, or none for the sentinel `NONE`
(R110, R113 to R121). -/
def resolve : Operand → M (Option Word)
  | .imp | .acc => return none
  | .imm _ => look fun s => some (s.pc - 1)
  | .zp b => return some (zext16 b)
  | .zpx b => look fun s => some (zext16 (b + s.x))
  | .zpy b => look fun s => some (zext16 (b + s.y))
  | .abs a => return some a
  | .abx a => look fun s => some (a + zext16 s.x)
  | .aby a => look fun s => some (a + zext16 s.y)
  | .ind p => return some (← memRead16 p (samePageNext p))
  | .izx b => do return some (← zeroPagePointer (b + (← look State.x)))
  | .izy b => do return some ((← zeroPagePointer b) + zext16 (← look State.y))
  | .rel off => look fun s => some (s.pc + sext16 off)

/-- Reads through an effective address; the sentinel means "operate on the accumulator" (R200 and the glossary's
"Effective address"). -/
def readEa : Option Word → M Byte
  | none => look State.a
  | some addr => memRead addr

/-- Writes through an effective address; the sentinel means "operate on the accumulator" (R200). -/
def writeEa (ea : Option Word) (v : Byte) : M Unit :=
  match ea with
  | none => update fun s => s.setA v
  | some addr => memWrite addr v

/-- `MemRead(ea, 1)` of a reading instruction. An immediate operand is the byte `Step` fetched at `ea` (R114). -/
def loadOperand : Operand → M Byte
  | .imm b => return b
  | o => do readEa (← resolve o)

/-- `PC <- ea`. No table row pairs a jump or branch with a mode that has no address (R86). -/
def jumpTo : Option Word → M Unit
  | none => return ()
  | some addr => setPC addr

end Sys2Proof.Machine
end

