-- ==== Sys2Proof/Machine/Arith.lean ====
section
/-! DEFINITION. The meanings of arithmetic, logic, compare, bit test, increment and decrement (43_arith_logic.md): each operation once, over an operand, then one meaning per opcode-table
row. On entry PC is the address of the next instruction (R307). -/

namespace Sys2Proof.Machine

/-! ### Operations -/

/-- `(A, C, V, Z, S) <- ADD(A, m, C)` (R175). -/
def addToA (m : Byte) (c : Bool) : M Unit := update fun s =>
  let o := addF s.a m c
  (s.setA o.r).setP (putArith s.p o)

/-- `(A, C, V, Z, S) <- SUB(A, m, C)` (R176). -/
def subFromA (m : Byte) (c : Bool) : M Unit := update fun s =>
  let o := subF s.a m c
  (s.setA o.r).setP (putArith s.p o)

/-- `(A, Z, S) <- f(A, m)` for a logic function `f` (R177 to R179). -/
def logicA (f : Byte → Byte → LogicOut) (m : Byte) : M Unit := update fun s =>
  let o := f s.a m
  (s.setA o.r).setP (putLogic s.p o)

/-- `(C, Z, S) <- CMPF(r, m)` (R180 to R182). -/
def compareWith (r m : Byte) : M Unit := update fun s => s.setP (putCompare s.p (compareF r m))

/-- ADC (R175): binary whatever the Decimal flag holds. -/
def opAdc (o : Operand) : M Unit := do
  let m ← loadOperand o
  addToA m (← look fun s => s.flag .C)

/-- SBC (R176, R259): binary whatever the Decimal flag holds. -/
def opSbc (o : Operand) : M Unit := do
  let m ← loadOperand o
  subFromA m (← look fun s => s.flag .C)

/-- AND (R177). -/
def opAnd (o : Operand) : M Unit := do
  let m ← loadOperand o
  logicA andF m

/-- ORA (R178). -/
def opOra (o : Operand) : M Unit := do
  let m ← loadOperand o
  logicA orF m

/-- EOR (R179). -/
def opEor (o : Operand) : M Unit := do
  let m ← loadOperand o
  logicA xorF m

/-- CMP (R180). -/
def opCmp (o : Operand) : M Unit := do
  let m ← loadOperand o
  compareWith (← look State.a) m

/-- CPX (R181). -/
def opCpx (o : Operand) : M Unit := do
  let m ← loadOperand o
  compareWith (← look State.x) m

/-- CPY (R182). -/
def opCpy (o : Operand) : M Unit := do
  let m ← loadOperand o
  compareWith (← look State.y) m

/-- BIT (R183). -/
def opBit (o : Operand) : M Unit := do
  let m ← loadOperand o
  update fun s => s.setP (putBit s.p (bitF s.a m))

/-- `m <- MemRead(ea, 1); (r, Z, S) <- f(m); MemWrite(ea, 1, r)` (R184, R185): one read, then one write. -/
def stepMemory (f : Byte → LogicOut) (o : Operand) : M Unit := do
  let ea ← resolve o
  let m ← readEa ea
  let out := f m
  update fun s => s.setP (putLogic s.p out)
  writeEa ea out.r

/-- INC (R184). -/
def opInc (o : Operand) : M Unit := stepMemory incF o

/-- DEC (R185). -/
def opDec (o : Operand) : M Unit := stepMemory decF o

/-- INX (R186). -/
def opInx : M Unit := update fun s =>
  let o := incF s.x
  (s.setX o.r).setP (putLogic s.p o)

/-- INY (R187). -/
def opIny : M Unit := update fun s =>
  let o := incF s.y
  (s.setY o.r).setP (putLogic s.p o)

/-- DEX (R188). -/
def opDex : M Unit := update fun s =>
  let o := decF s.x
  (s.setX o.r).setP (putLogic s.p o)

/-- DEY (R189). -/
def opDey : M Unit := update fun s =>
  let o := decF s.y
  (s.setY o.r).setP (putLogic s.p o)

/-! ### One meaning per row -/

/-- ADC pre-indexed indirect, 0x61 (R175). -/
def execAdcIzx (b : Byte) (s : State) : Host.Outcome State Fault Refusal := finish (opAdc (.izx b)) s

/-- ADC zero-page, 0x65 (R175). -/
def execAdcZp (b : Byte) (s : State) : Host.Outcome State Fault Refusal := finish (opAdc (.zp b)) s

/-- ADC immediate, 0x69 (R175). -/
def execAdcImm (b : Byte) (s : State) : Host.Outcome State Fault Refusal := finish (opAdc (.imm b)) s

/-- ADC absolute, 0x6D (R175). -/
def execAdcAbs (a : Word) (s : State) : Host.Outcome State Fault Refusal := finish (opAdc (.abs a)) s

/-- ADC post-indexed indirect, 0x71 (R175). -/
def execAdcIzy (b : Byte) (s : State) : Host.Outcome State Fault Refusal := finish (opAdc (.izy b)) s

/-- ADC zero-page,X, 0x75 (R175). -/
def execAdcZpx (b : Byte) (s : State) : Host.Outcome State Fault Refusal := finish (opAdc (.zpx b)) s

/-- ADC absolute,Y, 0x79 (R175). -/
def execAdcAby (a : Word) (s : State) : Host.Outcome State Fault Refusal := finish (opAdc (.aby a)) s

/-- ADC absolute,X, 0x7D (R175). -/
def execAdcAbx (a : Word) (s : State) : Host.Outcome State Fault Refusal := finish (opAdc (.abx a)) s

/-- SBC pre-indexed indirect, 0xE1 (R176). -/
def execSbcIzx (b : Byte) (s : State) : Host.Outcome State Fault Refusal := finish (opSbc (.izx b)) s

/-- SBC zero-page, 0xE5 (R176). -/
def execSbcZp (b : Byte) (s : State) : Host.Outcome State Fault Refusal := finish (opSbc (.zp b)) s

/-- SBC immediate, 0xE9 (R176). -/
def execSbcImm (b : Byte) (s : State) : Host.Outcome State Fault Refusal := finish (opSbc (.imm b)) s

/-- SBC absolute, 0xED (R176). -/
def execSbcAbs (a : Word) (s : State) : Host.Outcome State Fault Refusal := finish (opSbc (.abs a)) s

/-- SBC post-indexed indirect, 0xF1 (R176). -/
def execSbcIzy (b : Byte) (s : State) : Host.Outcome State Fault Refusal := finish (opSbc (.izy b)) s

/-- SBC zero-page,X, 0xF5 (R176). -/
def execSbcZpx (b : Byte) (s : State) : Host.Outcome State Fault Refusal := finish (opSbc (.zpx b)) s

/-- SBC absolute,Y, 0xF9 (R176). -/
def execSbcAby (a : Word) (s : State) : Host.Outcome State Fault Refusal := finish (opSbc (.aby a)) s

/-- SBC absolute,X, 0xFD (R176). -/
def execSbcAbx (a : Word) (s : State) : Host.Outcome State Fault Refusal := finish (opSbc (.abx a)) s

/-- AND pre-indexed indirect, 0x21 (R177). -/
def execAndIzx (b : Byte) (s : State) : Host.Outcome State Fault Refusal := finish (opAnd (.izx b)) s

/-- AND zero-page, 0x25 (R177). -/
def execAndZp (b : Byte) (s : State) : Host.Outcome State Fault Refusal := finish (opAnd (.zp b)) s

/-- AND immediate, 0x29 (R177). -/
def execAndImm (b : Byte) (s : State) : Host.Outcome State Fault Refusal := finish (opAnd (.imm b)) s

/-- AND absolute, 0x2D (R177). -/
def execAndAbs (a : Word) (s : State) : Host.Outcome State Fault Refusal := finish (opAnd (.abs a)) s

/-- AND post-indexed indirect, 0x31 (R177). -/
def execAndIzy (b : Byte) (s : State) : Host.Outcome State Fault Refusal := finish (opAnd (.izy b)) s

/-- AND zero-page,X, 0x35 (R177). -/
def execAndZpx (b : Byte) (s : State) : Host.Outcome State Fault Refusal := finish (opAnd (.zpx b)) s

/-- AND absolute,Y, 0x39 (R177). -/
def execAndAby (a : Word) (s : State) : Host.Outcome State Fault Refusal := finish (opAnd (.aby a)) s

/-- AND absolute,X, 0x3D (R177). -/
def execAndAbx (a : Word) (s : State) : Host.Outcome State Fault Refusal := finish (opAnd (.abx a)) s

/-- ORA pre-indexed indirect, 0x01 (R178). -/
def execOraIzx (b : Byte) (s : State) : Host.Outcome State Fault Refusal := finish (opOra (.izx b)) s

/-- ORA zero-page, 0x05 (R178). -/
def execOraZp (b : Byte) (s : State) : Host.Outcome State Fault Refusal := finish (opOra (.zp b)) s

/-- ORA immediate, 0x09 (R178). -/
def execOraImm (b : Byte) (s : State) : Host.Outcome State Fault Refusal := finish (opOra (.imm b)) s

/-- ORA absolute, 0x0D (R178). -/
def execOraAbs (a : Word) (s : State) : Host.Outcome State Fault Refusal := finish (opOra (.abs a)) s

/-- ORA post-indexed indirect, 0x11 (R178). -/
def execOraIzy (b : Byte) (s : State) : Host.Outcome State Fault Refusal := finish (opOra (.izy b)) s

/-- ORA zero-page,X, 0x15 (R178). -/
def execOraZpx (b : Byte) (s : State) : Host.Outcome State Fault Refusal := finish (opOra (.zpx b)) s

/-- ORA absolute,Y, 0x19 (R178). -/
def execOraAby (a : Word) (s : State) : Host.Outcome State Fault Refusal := finish (opOra (.aby a)) s

/-- ORA absolute,X, 0x1D (R178). -/
def execOraAbx (a : Word) (s : State) : Host.Outcome State Fault Refusal := finish (opOra (.abx a)) s

/-- EOR pre-indexed indirect, 0x41 (R179). -/
def execEorIzx (b : Byte) (s : State) : Host.Outcome State Fault Refusal := finish (opEor (.izx b)) s

/-- EOR zero-page, 0x45 (R179). -/
def execEorZp (b : Byte) (s : State) : Host.Outcome State Fault Refusal := finish (opEor (.zp b)) s

/-- EOR immediate, 0x49 (R179). -/
def execEorImm (b : Byte) (s : State) : Host.Outcome State Fault Refusal := finish (opEor (.imm b)) s

/-- EOR absolute, 0x4D (R179). -/
def execEorAbs (a : Word) (s : State) : Host.Outcome State Fault Refusal := finish (opEor (.abs a)) s

/-- EOR post-indexed indirect, 0x51 (R179). -/
def execEorIzy (b : Byte) (s : State) : Host.Outcome State Fault Refusal := finish (opEor (.izy b)) s

/-- EOR zero-page,X, 0x55 (R179). -/
def execEorZpx (b : Byte) (s : State) : Host.Outcome State Fault Refusal := finish (opEor (.zpx b)) s

/-- EOR absolute,Y, 0x59 (R179). -/
def execEorAby (a : Word) (s : State) : Host.Outcome State Fault Refusal := finish (opEor (.aby a)) s

/-- EOR absolute,X, 0x5D (R179). -/
def execEorAbx (a : Word) (s : State) : Host.Outcome State Fault Refusal := finish (opEor (.abx a)) s

/-- CMP pre-indexed indirect, 0xC1 (R180). -/
def execCmpIzx (b : Byte) (s : State) : Host.Outcome State Fault Refusal := finish (opCmp (.izx b)) s

/-- CMP zero-page, 0xC5 (R180). -/
def execCmpZp (b : Byte) (s : State) : Host.Outcome State Fault Refusal := finish (opCmp (.zp b)) s

/-- CMP immediate, 0xC9 (R180). -/
def execCmpImm (b : Byte) (s : State) : Host.Outcome State Fault Refusal := finish (opCmp (.imm b)) s

/-- CMP absolute, 0xCD (R180). -/
def execCmpAbs (a : Word) (s : State) : Host.Outcome State Fault Refusal := finish (opCmp (.abs a)) s

/-- CMP post-indexed indirect, 0xD1 (R180). -/
def execCmpIzy (b : Byte) (s : State) : Host.Outcome State Fault Refusal := finish (opCmp (.izy b)) s

/-- CMP zero-page,X, 0xD5 (R180). -/
def execCmpZpx (b : Byte) (s : State) : Host.Outcome State Fault Refusal := finish (opCmp (.zpx b)) s

/-- CMP absolute,Y, 0xD9 (R180). -/
def execCmpAby (a : Word) (s : State) : Host.Outcome State Fault Refusal := finish (opCmp (.aby a)) s

/-- CMP absolute,X, 0xDD (R180). -/
def execCmpAbx (a : Word) (s : State) : Host.Outcome State Fault Refusal := finish (opCmp (.abx a)) s

/-- CPX immediate, 0xE0 (R181). -/
def execCpxImm (b : Byte) (s : State) : Host.Outcome State Fault Refusal := finish (opCpx (.imm b)) s

/-- CPX zero-page, 0xE4 (R181). -/
def execCpxZp (b : Byte) (s : State) : Host.Outcome State Fault Refusal := finish (opCpx (.zp b)) s

/-- CPX absolute, 0xEC (R181). -/
def execCpxAbs (a : Word) (s : State) : Host.Outcome State Fault Refusal := finish (opCpx (.abs a)) s

/-- CPY immediate, 0xC0 (R182). -/
def execCpyImm (b : Byte) (s : State) : Host.Outcome State Fault Refusal := finish (opCpy (.imm b)) s

/-- CPY zero-page, 0xC4 (R182). -/
def execCpyZp (b : Byte) (s : State) : Host.Outcome State Fault Refusal := finish (opCpy (.zp b)) s

/-- CPY absolute, 0xCC (R182). -/
def execCpyAbs (a : Word) (s : State) : Host.Outcome State Fault Refusal := finish (opCpy (.abs a)) s

/-- BIT zero-page, 0x24 (R183). -/
def execBitZp (b : Byte) (s : State) : Host.Outcome State Fault Refusal := finish (opBit (.zp b)) s

/-- BIT absolute, 0x2C (R183). -/
def execBitAbs (a : Word) (s : State) : Host.Outcome State Fault Refusal := finish (opBit (.abs a)) s

/-- INC zero-page, 0xE6 (R184). -/
def execIncZp (b : Byte) (s : State) : Host.Outcome State Fault Refusal := finish (opInc (.zp b)) s

/-- INC absolute, 0xEE (R184). -/
def execIncAbs (a : Word) (s : State) : Host.Outcome State Fault Refusal := finish (opInc (.abs a)) s

/-- INC zero-page,X, 0xF6 (R184). -/
def execIncZpx (b : Byte) (s : State) : Host.Outcome State Fault Refusal := finish (opInc (.zpx b)) s

/-- INC absolute,X, 0xFE (R184). -/
def execIncAbx (a : Word) (s : State) : Host.Outcome State Fault Refusal := finish (opInc (.abx a)) s

/-- DEC zero-page, 0xC6 (R185). -/
def execDecZp (b : Byte) (s : State) : Host.Outcome State Fault Refusal := finish (opDec (.zp b)) s

/-- DEC absolute, 0xCE (R185). -/
def execDecAbs (a : Word) (s : State) : Host.Outcome State Fault Refusal := finish (opDec (.abs a)) s

/-- DEC zero-page,X, 0xD6 (R185). -/
def execDecZpx (b : Byte) (s : State) : Host.Outcome State Fault Refusal := finish (opDec (.zpx b)) s

/-- DEC absolute,X, 0xDE (R185). -/
def execDecAbx (a : Word) (s : State) : Host.Outcome State Fault Refusal := finish (opDec (.abx a)) s

/-- INX implied, 0xE8 (R186). -/
def execInx (s : State) : Host.Outcome State Fault Refusal := finish opInx s

/-- INY implied, 0xC8 (R187). -/
def execIny (s : State) : Host.Outcome State Fault Refusal := finish opIny s

/-- DEX implied, 0xCA (R188). -/
def execDex (s : State) : Host.Outcome State Fault Refusal := finish opDex s

/-- DEY implied, 0x88 (R189). -/
def execDey (s : State) : Host.Outcome State Fault Refusal := finish opDey s

end Sys2Proof.Machine
end

