-- ==== Sys2Proof/Machine/Control.lean ====
section
/-! DEFINITION. The meanings of branches, jumps, subroutines, BRK and RTI (45_control.md): each operation once, over an operand, then one meaning per opcode-table
row. On entry PC is the address of the next instruction (R307). -/

namespace Sys2Proof.Machine

/-! ### Operations -/

/-- `Branch(P.f == v, ea)` (R210): the target is computed whether or not the branch is taken. -/
def branchIf (f : Flag) (v : Bool) (o : Operand) : M Unit := do
  let ea ← resolve o
  if (← look fun s => s.flag f) = v then jumpTo ea

/-- JMP (R219): the target byte itself is not read. -/
def opJmp (o : Operand) : M Unit := do
  let ea ← resolve o
  jumpTo ea

/-- JSR (R220): pushes the return address minus 1, high byte first. -/
def opJsr (o : Operand) : M Unit := do
  let ea ← resolve o
  let ret ← look State.pc
  pushWord (ret - 1)
  jumpTo ea

/-- RTS (R221): pulls low then high and adds 1. -/
def opRts : M Unit := do
  let w ← popWord
  setPC (w + 1)

/-- BRK (R222): enters through `VEC_IRQ`, its return address being the opcode's address plus 2. -/
def opBrk : M Unit := do
  let next ← look State.pc
  enterVector (next + 1) Config.vecIrq

/-- RTI (R223). -/
def opRti : M Unit := returnFromVector

/-! ### One meaning per row -/

/-- BCC relative, 0x90 (R211). -/
def execBcc (b : Byte) (s : State) : Host.Outcome State Fault Refusal := finish (branchIf .C false (.rel b)) s

/-- BCS relative, 0xB0 (R212). -/
def execBcs (b : Byte) (s : State) : Host.Outcome State Fault Refusal := finish (branchIf .C true (.rel b)) s

/-- BEQ relative, 0xF0 (R213). -/
def execBeq (b : Byte) (s : State) : Host.Outcome State Fault Refusal := finish (branchIf .Z true (.rel b)) s

/-- BNE relative, 0xD0 (R214). -/
def execBne (b : Byte) (s : State) : Host.Outcome State Fault Refusal := finish (branchIf .Z false (.rel b)) s

/-- BMI relative, 0x30 (R215). -/
def execBmi (b : Byte) (s : State) : Host.Outcome State Fault Refusal := finish (branchIf .S true (.rel b)) s

/-- BPL relative, 0x10 (R216). -/
def execBpl (b : Byte) (s : State) : Host.Outcome State Fault Refusal := finish (branchIf .S false (.rel b)) s

/-- BVC relative, 0x50 (R217). -/
def execBvc (b : Byte) (s : State) : Host.Outcome State Fault Refusal := finish (branchIf .V false (.rel b)) s

/-- BVS relative, 0x70 (R218). -/
def execBvs (b : Byte) (s : State) : Host.Outcome State Fault Refusal := finish (branchIf .V true (.rel b)) s

/-- JMP absolute, 0x4C (R219). -/
def execJmpAbs (a : Word) (s : State) : Host.Outcome State Fault Refusal := finish (opJmp (.abs a)) s

/-- JMP indirect, 0x6C (R219). -/
def execJmpInd (a : Word) (s : State) : Host.Outcome State Fault Refusal := finish (opJmp (.ind a)) s

/-- JSR absolute, 0x20 (R220). -/
def execJsr (a : Word) (s : State) : Host.Outcome State Fault Refusal := finish (opJsr (.abs a)) s

/-- RTS implied, 0x60 (R221). -/
def execRts (s : State) : Host.Outcome State Fault Refusal := finish opRts s

/-- BRK implied, 0x00 (R222). -/
def execBrk (s : State) : Host.Outcome State Fault Refusal := finish opBrk s

/-- RTI implied, 0x40 (R223). -/
def execRti (s : State) : Host.Outcome State Fault Refusal := finish opRti s

end Sys2Proof.Machine
end

