-- ==== Sys2Proof/Machine/LoadStore.lean ====
section
/-! DEFINITION. The meanings of loads, stores and register transfers (42_load_store_transfer.md): each operation once, over an operand, then one meaning per opcode-table
row. On entry PC is the address of the next instruction (R307). -/

namespace Sys2Proof.Machine

/-! ### Operations -/

/-- LDA (R155). -/
def opLda (o : Operand) : M Unit := do
  let v ← loadOperand o
  update fun s => s.setA v
  setZS v

/-- LDX (R156). -/
def opLdx (o : Operand) : M Unit := do
  let v ← loadOperand o
  update fun s => s.setX v
  setZS v

/-- LDY (R157). -/
def opLdy (o : Operand) : M Unit := do
  let v ← loadOperand o
  update fun s => s.setY v
  setZS v

/-- STA (R158): the target is not read. -/
def opSta (o : Operand) : M Unit := do
  let ea ← resolve o
  writeEa ea (← look State.a)

/-- STX (R159). -/
def opStx (o : Operand) : M Unit := do
  let ea ← resolve o
  writeEa ea (← look State.x)

/-- STY (R160). -/
def opSty (o : Operand) : M Unit := do
  let ea ← resolve o
  writeEa ea (← look State.y)

/-- TAX (R161). -/
def opTax : M Unit := do
  let v ← look State.a
  update fun s => s.setX v
  setZS v

/-- TAY (R162). -/
def opTay : M Unit := do
  let v ← look State.a
  update fun s => s.setY v
  setZS v

/-- TXA (R163). -/
def opTxa : M Unit := do
  let v ← look State.x
  update fun s => s.setA v
  setZS v

/-- TYA (R164). -/
def opTya : M Unit := do
  let v ← look State.y
  update fun s => s.setA v
  setZS v

/-- TSX (R165). -/
def opTsx : M Unit := do
  let v ← look State.sp
  update fun s => s.setX v
  setZS v

/-- TXS (R166): the one transfer that writes no flag. -/
def opTxs : M Unit := do
  let v ← look State.x
  update fun s => s.setSp v

/-! ### One meaning per row -/

/-- LDA pre-indexed indirect, 0xA1 (R155). -/
def execLdaIzx (b : Byte) (s : State) : Host.Outcome State Fault Refusal := finish (opLda (.izx b)) s

/-- LDA zero-page, 0xA5 (R155). -/
def execLdaZp (b : Byte) (s : State) : Host.Outcome State Fault Refusal := finish (opLda (.zp b)) s

/-- LDA immediate, 0xA9 (R155). -/
def execLdaImm (b : Byte) (s : State) : Host.Outcome State Fault Refusal := finish (opLda (.imm b)) s

/-- LDA absolute, 0xAD (R155). -/
def execLdaAbs (a : Word) (s : State) : Host.Outcome State Fault Refusal := finish (opLda (.abs a)) s

/-- LDA post-indexed indirect, 0xB1 (R155). -/
def execLdaIzy (b : Byte) (s : State) : Host.Outcome State Fault Refusal := finish (opLda (.izy b)) s

/-- LDA zero-page,X, 0xB5 (R155). -/
def execLdaZpx (b : Byte) (s : State) : Host.Outcome State Fault Refusal := finish (opLda (.zpx b)) s

/-- LDA absolute,Y, 0xB9 (R155). -/
def execLdaAby (a : Word) (s : State) : Host.Outcome State Fault Refusal := finish (opLda (.aby a)) s

/-- LDA absolute,X, 0xBD (R155). -/
def execLdaAbx (a : Word) (s : State) : Host.Outcome State Fault Refusal := finish (opLda (.abx a)) s

/-- LDX immediate, 0xA2 (R156). -/
def execLdxImm (b : Byte) (s : State) : Host.Outcome State Fault Refusal := finish (opLdx (.imm b)) s

/-- LDX zero-page, 0xA6 (R156). -/
def execLdxZp (b : Byte) (s : State) : Host.Outcome State Fault Refusal := finish (opLdx (.zp b)) s

/-- LDX absolute, 0xAE (R156). -/
def execLdxAbs (a : Word) (s : State) : Host.Outcome State Fault Refusal := finish (opLdx (.abs a)) s

/-- LDX zero-page,Y, 0xB6 (R156). -/
def execLdxZpy (b : Byte) (s : State) : Host.Outcome State Fault Refusal := finish (opLdx (.zpy b)) s

/-- LDX absolute,Y, 0xBE (R156). -/
def execLdxAby (a : Word) (s : State) : Host.Outcome State Fault Refusal := finish (opLdx (.aby a)) s

/-- LDY immediate, 0xA0 (R157). -/
def execLdyImm (b : Byte) (s : State) : Host.Outcome State Fault Refusal := finish (opLdy (.imm b)) s

/-- LDY zero-page, 0xA4 (R157). -/
def execLdyZp (b : Byte) (s : State) : Host.Outcome State Fault Refusal := finish (opLdy (.zp b)) s

/-- LDY absolute, 0xAC (R157). -/
def execLdyAbs (a : Word) (s : State) : Host.Outcome State Fault Refusal := finish (opLdy (.abs a)) s

/-- LDY zero-page,X, 0xB4 (R157). -/
def execLdyZpx (b : Byte) (s : State) : Host.Outcome State Fault Refusal := finish (opLdy (.zpx b)) s

/-- LDY absolute,X, 0xBC (R157). -/
def execLdyAbx (a : Word) (s : State) : Host.Outcome State Fault Refusal := finish (opLdy (.abx a)) s

/-- STA pre-indexed indirect, 0x81 (R158). -/
def execStaIzx (b : Byte) (s : State) : Host.Outcome State Fault Refusal := finish (opSta (.izx b)) s

/-- STA zero-page, 0x85 (R158). -/
def execStaZp (b : Byte) (s : State) : Host.Outcome State Fault Refusal := finish (opSta (.zp b)) s

/-- STA absolute, 0x8D (R158). -/
def execStaAbs (a : Word) (s : State) : Host.Outcome State Fault Refusal := finish (opSta (.abs a)) s

/-- STA post-indexed indirect, 0x91 (R158). -/
def execStaIzy (b : Byte) (s : State) : Host.Outcome State Fault Refusal := finish (opSta (.izy b)) s

/-- STA zero-page,X, 0x95 (R158). -/
def execStaZpx (b : Byte) (s : State) : Host.Outcome State Fault Refusal := finish (opSta (.zpx b)) s

/-- STA absolute,Y, 0x99 (R158). -/
def execStaAby (a : Word) (s : State) : Host.Outcome State Fault Refusal := finish (opSta (.aby a)) s

/-- STA absolute,X, 0x9D (R158). -/
def execStaAbx (a : Word) (s : State) : Host.Outcome State Fault Refusal := finish (opSta (.abx a)) s

/-- STX zero-page, 0x86 (R159). -/
def execStxZp (b : Byte) (s : State) : Host.Outcome State Fault Refusal := finish (opStx (.zp b)) s

/-- STX absolute, 0x8E (R159). -/
def execStxAbs (a : Word) (s : State) : Host.Outcome State Fault Refusal := finish (opStx (.abs a)) s

/-- STX zero-page,Y, 0x96 (R159). -/
def execStxZpy (b : Byte) (s : State) : Host.Outcome State Fault Refusal := finish (opStx (.zpy b)) s

/-- STY zero-page, 0x84 (R160). -/
def execStyZp (b : Byte) (s : State) : Host.Outcome State Fault Refusal := finish (opSty (.zp b)) s

/-- STY absolute, 0x8C (R160). -/
def execStyAbs (a : Word) (s : State) : Host.Outcome State Fault Refusal := finish (opSty (.abs a)) s

/-- STY zero-page,X, 0x94 (R160). -/
def execStyZpx (b : Byte) (s : State) : Host.Outcome State Fault Refusal := finish (opSty (.zpx b)) s

/-- TAX implied, 0xAA (R161). -/
def execTax (s : State) : Host.Outcome State Fault Refusal := finish opTax s

/-- TAY implied, 0xA8 (R162). -/
def execTay (s : State) : Host.Outcome State Fault Refusal := finish opTay s

/-- TXA implied, 0x8A (R163). -/
def execTxa (s : State) : Host.Outcome State Fault Refusal := finish opTxa s

/-- TYA implied, 0x98 (R164). -/
def execTya (s : State) : Host.Outcome State Fault Refusal := finish opTya s

/-- TSX implied, 0xBA (R165). -/
def execTsx (s : State) : Host.Outcome State Fault Refusal := finish opTsx s

/-- TXS implied, 0x9A (R166). -/
def execTxs (s : State) : Host.Outcome State Fault Refusal := finish opTxs s

end Sys2Proof.Machine
end

