-- ==== Sys2Proof/Machine/Shift.lean ====
section
/-! DEFINITION. The meanings of shifts and rotates (44_shift_rotate.md): each operation once, over an operand, then one meaning per opcode-table
row. On entry PC is the address of the next instruction (R307). -/

namespace Sys2Proof.Machine

/-! ### Operations -/

/-- The common shape (R200): the operand is A for the sentinel `NONE` and the byte at `ea` otherwise; the flags are
written, then the result goes back where the operand came from. `f` gets the Carry on entry. -/
def shiftOperand (f : Byte → Bool → ShiftOut) (o : Operand) : M Unit := do
  let ea ← resolve o
  let v ← readEa ea
  let out := f v (← look fun s => s.flag .C)
  update fun s => s.setP (putShift s.p out)
  writeEa ea out.r

/-- ASL (R201): the incoming Carry is not used. -/
def opAsl (o : Operand) : M Unit := shiftOperand (fun v _ => aslF v) o

/-- LSR (R202): the incoming Carry is not used. -/
def opLsr (o : Operand) : M Unit := shiftOperand (fun v _ => lsrF v) o

/-- ROL (R203). -/
def opRol (o : Operand) : M Unit := shiftOperand rolF o

/-- ROR (R204). -/
def opRor (o : Operand) : M Unit := shiftOperand rorF o

/-! ### One meaning per row -/

/-- ASL zero-page, 0x06 (R201). -/
def execAslZp (b : Byte) (s : State) : Host.Outcome State Fault Refusal := finish (opAsl (.zp b)) s

/-- ASL accumulator, 0x0A (R201). -/
def execAslAcc (s : State) : Host.Outcome State Fault Refusal := finish (opAsl .acc) s

/-- ASL absolute, 0x0E (R201). -/
def execAslAbs (a : Word) (s : State) : Host.Outcome State Fault Refusal := finish (opAsl (.abs a)) s

/-- ASL zero-page,X, 0x16 (R201). -/
def execAslZpx (b : Byte) (s : State) : Host.Outcome State Fault Refusal := finish (opAsl (.zpx b)) s

/-- ASL absolute,X, 0x1E (R201). -/
def execAslAbx (a : Word) (s : State) : Host.Outcome State Fault Refusal := finish (opAsl (.abx a)) s

/-- LSR zero-page, 0x46 (R202). -/
def execLsrZp (b : Byte) (s : State) : Host.Outcome State Fault Refusal := finish (opLsr (.zp b)) s

/-- LSR accumulator, 0x4A (R202). -/
def execLsrAcc (s : State) : Host.Outcome State Fault Refusal := finish (opLsr .acc) s

/-- LSR absolute, 0x4E (R202). -/
def execLsrAbs (a : Word) (s : State) : Host.Outcome State Fault Refusal := finish (opLsr (.abs a)) s

/-- LSR zero-page,X, 0x56 (R202). -/
def execLsrZpx (b : Byte) (s : State) : Host.Outcome State Fault Refusal := finish (opLsr (.zpx b)) s

/-- LSR absolute,X, 0x5E (R202). -/
def execLsrAbx (a : Word) (s : State) : Host.Outcome State Fault Refusal := finish (opLsr (.abx a)) s

/-- ROL zero-page, 0x26 (R203). -/
def execRolZp (b : Byte) (s : State) : Host.Outcome State Fault Refusal := finish (opRol (.zp b)) s

/-- ROL accumulator, 0x2A (R203). -/
def execRolAcc (s : State) : Host.Outcome State Fault Refusal := finish (opRol .acc) s

/-- ROL absolute, 0x2E (R203). -/
def execRolAbs (a : Word) (s : State) : Host.Outcome State Fault Refusal := finish (opRol (.abs a)) s

/-- ROL zero-page,X, 0x36 (R203). -/
def execRolZpx (b : Byte) (s : State) : Host.Outcome State Fault Refusal := finish (opRol (.zpx b)) s

/-- ROL absolute,X, 0x3E (R203). -/
def execRolAbx (a : Word) (s : State) : Host.Outcome State Fault Refusal := finish (opRol (.abx a)) s

/-- ROR zero-page, 0x66 (R204). -/
def execRorZp (b : Byte) (s : State) : Host.Outcome State Fault Refusal := finish (opRor (.zp b)) s

/-- ROR accumulator, 0x6A (R204). -/
def execRorAcc (s : State) : Host.Outcome State Fault Refusal := finish (opRor .acc) s

/-- ROR absolute, 0x6E (R204). -/
def execRorAbs (a : Word) (s : State) : Host.Outcome State Fault Refusal := finish (opRor (.abs a)) s

/-- ROR zero-page,X, 0x76 (R204). -/
def execRorZpx (b : Byte) (s : State) : Host.Outcome State Fault Refusal := finish (opRor (.zpx b)) s

/-- ROR absolute,X, 0x7E (R204). -/
def execRorAbx (a : Word) (s : State) : Host.Outcome State Fault Refusal := finish (opRor (.abx a)) s

end Sys2Proof.Machine
end

