-- ==== Sys2Proof/Machine/StackFlags.lean ====
section
/-! DEFINITION. The meanings of stack, flag set and clear, NOP (46_stack_flags.md): each operation once, over an operand, then one meaning per opcode-table
row. On entry PC is the address of the next instruction (R307). -/

namespace Sys2Proof.Machine

/-! ### Operations -/

/-- PHA (R230). -/
def opPha : M Unit := do
  push (← look State.a)

/-- PLA (R231). -/
def opPla : M Unit := do
  let v ← pop
  update fun s => s.setA v
  setZS v

/-- PHP (R232): the pushed copy has Break and Reserved set; `P` is unchanged. -/
def opPhp : M Unit := do
  push (pushImage (← look State.p))

/-- PLP (R233). -/
def opPlp : M Unit := do
  let v ← pop
  update fun s => s.setP (pullImage v)

/-- NOP (R241) and the optional NOP forms (R258): the address is resolved and discarded, nothing is read at it. -/
def opNop (o : Operand) : M Unit := do
  let _ ← resolve o

/-! ### One meaning per row -/

/-- PHA implied, 0x48 (R230). -/
def execPha (s : State) : Host.Outcome State Fault Refusal := finish opPha s

/-- PLA implied, 0x68 (R231). -/
def execPla (s : State) : Host.Outcome State Fault Refusal := finish opPla s

/-- PHP implied, 0x08 (R232). -/
def execPhp (s : State) : Host.Outcome State Fault Refusal := finish opPhp s

/-- PLP implied, 0x28 (R233). -/
def execPlp (s : State) : Host.Outcome State Fault Refusal := finish opPlp s

/-- CLC implied, 0x18 (R234). -/
def execClc (s : State) : Host.Outcome State Fault Refusal := finish (setFlag .C false) s

/-- SEC implied, 0x38 (R235). -/
def execSec (s : State) : Host.Outcome State Fault Refusal := finish (setFlag .C true) s

/-- CLI implied, 0x58 (R236). -/
def execCli (s : State) : Host.Outcome State Fault Refusal := finish (setFlag .I false) s

/-- SEI implied, 0x78 (R237). -/
def execSei (s : State) : Host.Outcome State Fault Refusal := finish (setFlag .I true) s

/-- CLD implied, 0xD8 (R238). -/
def execCld (s : State) : Host.Outcome State Fault Refusal := finish (setFlag .D false) s

/-- SED implied, 0xF8 (R239). -/
def execSed (s : State) : Host.Outcome State Fault Refusal := finish (setFlag .D true) s

/-- CLV implied, 0xB8 (R240). -/
def execClv (s : State) : Host.Outcome State Fault Refusal := finish (setFlag .V false) s

/-- NOP implied, 0xEA (R241). -/
def execNop (s : State) : Host.Outcome State Fault Refusal := finish (opNop .imp) s

end Sys2Proof.Machine
end

