-- ==== Sys2Proof/Machine/Undocumented.lean ====
section
/-! DEFINITION. The meanings of the undocumented opcodes of the three named classes, and the optional opcodes of EXT_UNDOC (47_undocumented.md): each operation once, over an operand, then one meaning per opcode-table
row. On entry PC is the address of the next instruction (R307). -/

namespace Sys2Proof.Machine

/-! ### Operations -/

/-- LAX (R250): LDA and TAX in one read. -/
def opLax (o : Operand) : M Unit := do
  let m ← loadOperand o
  update fun s => s.setA m
  update fun s => s.setX m
  setZS m

/-- SAX (R251): stores A AND X; the target is not read. -/
def opSax (o : Operand) : M Unit := do
  let ea ← resolve o
  writeEa ea (← look fun s => s.a &&& s.x)

/-- SLO (R252): shift left, then OR into A. -/
def opSlo (o : Operand) : M Unit := do
  let ea ← resolve o
  let out := aslF (← readEa ea)
  setFlag .C out.c
  writeEa ea out.r
  logicA orF out.r

/-- RLA (R253): rotate left, then AND into A. -/
def opRla (o : Operand) : M Unit := do
  let ea ← resolve o
  let m ← readEa ea
  let out := rolF m (← look fun s => s.flag .C)
  setFlag .C out.c
  writeEa ea out.r
  logicA andF out.r

/-- SRE (R254): shift right, then exclusive-OR into A. -/
def opSre (o : Operand) : M Unit := do
  let ea ← resolve o
  let out := lsrF (← readEa ea)
  setFlag .C out.c
  writeEa ea out.r
  logicA xorF out.r

/-- RRA (R255): rotate right, then add to A with the bit rotated out as carry-in. -/
def opRra (o : Operand) : M Unit := do
  let ea ← resolve o
  let m ← readEa ea
  let out := rorF m (← look fun s => s.flag .C)
  writeEa ea out.r
  addToA out.r out.c

/-- DCP (R256): decrement, then compare with A. -/
def opDcp (o : Operand) : M Unit := do
  let ea ← resolve o
  let m ← readEa ea
  writeEa ea (m - 1)
  compareWith (← look State.a) (m - 1)

/-- ISB (R257): increment, then subtract from A with the Carry on entry as "no borrow". -/
def opIsb (o : Operand) : M Unit := do
  let ea ← resolve o
  let m ← readEa ea
  writeEa ea (m + 1)
  subFromA (m + 1) (← look fun s => s.flag .C)

/-! ### One meaning per row -/

/-- LAX pre-indexed indirect, 0xA3 (R250). -/
def execLaxIzx (b : Byte) (s : State) : Host.Outcome State Fault Refusal := finish (opLax (.izx b)) s

/-- LAX zero-page, 0xA7 (R250). -/
def execLaxZp (b : Byte) (s : State) : Host.Outcome State Fault Refusal := finish (opLax (.zp b)) s

/-- LAX absolute, 0xAF (R250). -/
def execLaxAbs (a : Word) (s : State) : Host.Outcome State Fault Refusal := finish (opLax (.abs a)) s

/-- LAX post-indexed indirect, 0xB3 (R250). -/
def execLaxIzy (b : Byte) (s : State) : Host.Outcome State Fault Refusal := finish (opLax (.izy b)) s

/-- LAX zero-page,Y, 0xB7 (R250). -/
def execLaxZpy (b : Byte) (s : State) : Host.Outcome State Fault Refusal := finish (opLax (.zpy b)) s

/-- LAX absolute,Y, 0xBF (R250). -/
def execLaxAby (a : Word) (s : State) : Host.Outcome State Fault Refusal := finish (opLax (.aby a)) s

/-- SAX pre-indexed indirect, 0x83 (R251). -/
def execSaxIzx (b : Byte) (s : State) : Host.Outcome State Fault Refusal := finish (opSax (.izx b)) s

/-- SAX zero-page, 0x87 (R251). -/
def execSaxZp (b : Byte) (s : State) : Host.Outcome State Fault Refusal := finish (opSax (.zp b)) s

/-- SAX absolute, 0x8F (R251). -/
def execSaxAbs (a : Word) (s : State) : Host.Outcome State Fault Refusal := finish (opSax (.abs a)) s

/-- SAX zero-page,Y, 0x97 (R251). -/
def execSaxZpy (b : Byte) (s : State) : Host.Outcome State Fault Refusal := finish (opSax (.zpy b)) s

/-- SLO pre-indexed indirect, 0x03 (R252). -/
def execSloIzx (b : Byte) (s : State) : Host.Outcome State Fault Refusal := finish (opSlo (.izx b)) s

/-- SLO zero-page, 0x07 (R252). -/
def execSloZp (b : Byte) (s : State) : Host.Outcome State Fault Refusal := finish (opSlo (.zp b)) s

/-- SLO absolute, 0x0F (R252). -/
def execSloAbs (a : Word) (s : State) : Host.Outcome State Fault Refusal := finish (opSlo (.abs a)) s

/-- SLO post-indexed indirect, 0x13 (R252). -/
def execSloIzy (b : Byte) (s : State) : Host.Outcome State Fault Refusal := finish (opSlo (.izy b)) s

/-- SLO zero-page,X, 0x17 (R252). -/
def execSloZpx (b : Byte) (s : State) : Host.Outcome State Fault Refusal := finish (opSlo (.zpx b)) s

/-- SLO absolute,Y, 0x1B (R252). -/
def execSloAby (a : Word) (s : State) : Host.Outcome State Fault Refusal := finish (opSlo (.aby a)) s

/-- SLO absolute,X, 0x1F (R252). -/
def execSloAbx (a : Word) (s : State) : Host.Outcome State Fault Refusal := finish (opSlo (.abx a)) s

/-- RLA pre-indexed indirect, 0x23 (R253). -/
def execRlaIzx (b : Byte) (s : State) : Host.Outcome State Fault Refusal := finish (opRla (.izx b)) s

/-- RLA zero-page, 0x27 (R253). -/
def execRlaZp (b : Byte) (s : State) : Host.Outcome State Fault Refusal := finish (opRla (.zp b)) s

/-- RLA absolute, 0x2F (R253). -/
def execRlaAbs (a : Word) (s : State) : Host.Outcome State Fault Refusal := finish (opRla (.abs a)) s

/-- RLA post-indexed indirect, 0x33 (R253). -/
def execRlaIzy (b : Byte) (s : State) : Host.Outcome State Fault Refusal := finish (opRla (.izy b)) s

/-- RLA zero-page,X, 0x37 (R253). -/
def execRlaZpx (b : Byte) (s : State) : Host.Outcome State Fault Refusal := finish (opRla (.zpx b)) s

/-- RLA absolute,Y, 0x3B (R253). -/
def execRlaAby (a : Word) (s : State) : Host.Outcome State Fault Refusal := finish (opRla (.aby a)) s

/-- RLA absolute,X, 0x3F (R253). -/
def execRlaAbx (a : Word) (s : State) : Host.Outcome State Fault Refusal := finish (opRla (.abx a)) s

/-- SRE pre-indexed indirect, 0x43 (R254). -/
def execSreIzx (b : Byte) (s : State) : Host.Outcome State Fault Refusal := finish (opSre (.izx b)) s

/-- SRE zero-page, 0x47 (R254). -/
def execSreZp (b : Byte) (s : State) : Host.Outcome State Fault Refusal := finish (opSre (.zp b)) s

/-- SRE absolute, 0x4F (R254). -/
def execSreAbs (a : Word) (s : State) : Host.Outcome State Fault Refusal := finish (opSre (.abs a)) s

/-- SRE post-indexed indirect, 0x53 (R254). -/
def execSreIzy (b : Byte) (s : State) : Host.Outcome State Fault Refusal := finish (opSre (.izy b)) s

/-- SRE zero-page,X, 0x57 (R254). -/
def execSreZpx (b : Byte) (s : State) : Host.Outcome State Fault Refusal := finish (opSre (.zpx b)) s

/-- SRE absolute,Y, 0x5B (R254). -/
def execSreAby (a : Word) (s : State) : Host.Outcome State Fault Refusal := finish (opSre (.aby a)) s

/-- SRE absolute,X, 0x5F (R254). -/
def execSreAbx (a : Word) (s : State) : Host.Outcome State Fault Refusal := finish (opSre (.abx a)) s

/-- RRA pre-indexed indirect, 0x63 (R255). -/
def execRraIzx (b : Byte) (s : State) : Host.Outcome State Fault Refusal := finish (opRra (.izx b)) s

/-- RRA zero-page, 0x67 (R255). -/
def execRraZp (b : Byte) (s : State) : Host.Outcome State Fault Refusal := finish (opRra (.zp b)) s

/-- RRA absolute, 0x6F (R255). -/
def execRraAbs (a : Word) (s : State) : Host.Outcome State Fault Refusal := finish (opRra (.abs a)) s

/-- RRA post-indexed indirect, 0x73 (R255). -/
def execRraIzy (b : Byte) (s : State) : Host.Outcome State Fault Refusal := finish (opRra (.izy b)) s

/-- RRA zero-page,X, 0x77 (R255). -/
def execRraZpx (b : Byte) (s : State) : Host.Outcome State Fault Refusal := finish (opRra (.zpx b)) s

/-- RRA absolute,Y, 0x7B (R255). -/
def execRraAby (a : Word) (s : State) : Host.Outcome State Fault Refusal := finish (opRra (.aby a)) s

/-- RRA absolute,X, 0x7F (R255). -/
def execRraAbx (a : Word) (s : State) : Host.Outcome State Fault Refusal := finish (opRra (.abx a)) s

/-- DCP pre-indexed indirect, 0xC3 (R256). -/
def execDcpIzx (b : Byte) (s : State) : Host.Outcome State Fault Refusal := finish (opDcp (.izx b)) s

/-- DCP zero-page, 0xC7 (R256). -/
def execDcpZp (b : Byte) (s : State) : Host.Outcome State Fault Refusal := finish (opDcp (.zp b)) s

/-- DCP absolute, 0xCF (R256). -/
def execDcpAbs (a : Word) (s : State) : Host.Outcome State Fault Refusal := finish (opDcp (.abs a)) s

/-- DCP post-indexed indirect, 0xD3 (R256). -/
def execDcpIzy (b : Byte) (s : State) : Host.Outcome State Fault Refusal := finish (opDcp (.izy b)) s

/-- DCP zero-page,X, 0xD7 (R256). -/
def execDcpZpx (b : Byte) (s : State) : Host.Outcome State Fault Refusal := finish (opDcp (.zpx b)) s

/-- DCP absolute,Y, 0xDB (R256). -/
def execDcpAby (a : Word) (s : State) : Host.Outcome State Fault Refusal := finish (opDcp (.aby a)) s

/-- DCP absolute,X, 0xDF (R256). -/
def execDcpAbx (a : Word) (s : State) : Host.Outcome State Fault Refusal := finish (opDcp (.abx a)) s

/-- ISB pre-indexed indirect, 0xE3 (R257). -/
def execIsbIzx (b : Byte) (s : State) : Host.Outcome State Fault Refusal := finish (opIsb (.izx b)) s

/-- ISB zero-page, 0xE7 (R257). -/
def execIsbZp (b : Byte) (s : State) : Host.Outcome State Fault Refusal := finish (opIsb (.zp b)) s

/-- ISB absolute, 0xEF (R257). -/
def execIsbAbs (a : Word) (s : State) : Host.Outcome State Fault Refusal := finish (opIsb (.abs a)) s

/-- ISB post-indexed indirect, 0xF3 (R257). -/
def execIsbIzy (b : Byte) (s : State) : Host.Outcome State Fault Refusal := finish (opIsb (.izy b)) s

/-- ISB zero-page,X, 0xF7 (R257). -/
def execIsbZpx (b : Byte) (s : State) : Host.Outcome State Fault Refusal := finish (opIsb (.zpx b)) s

/-- ISB absolute,Y, 0xFB (R257). -/
def execIsbAby (a : Word) (s : State) : Host.Outcome State Fault Refusal := finish (opIsb (.aby a)) s

/-- ISB absolute,X, 0xFF (R257). -/
def execIsbAbx (a : Word) (s : State) : Host.Outcome State Fault Refusal := finish (opIsb (.abx a)) s

/-- NOP zero-page, 0x04 (R258). -/
def execNopZp04 (b : Byte) (s : State) : Host.Outcome State Fault Refusal := finish (opNop (.zp b)) s

/-- NOP absolute, 0x0C (R258). -/
def execNopAbs0C (a : Word) (s : State) : Host.Outcome State Fault Refusal := finish (opNop (.abs a)) s

/-- NOP zero-page,X, 0x14 (R258). -/
def execNopZpx14 (b : Byte) (s : State) : Host.Outcome State Fault Refusal := finish (opNop (.zpx b)) s

/-- NOP implied, 0x1A (R258). -/
def execNopImp1A (s : State) : Host.Outcome State Fault Refusal := finish (opNop .imp) s

/-- NOP absolute,X, 0x1C (R258). -/
def execNopAbx1C (a : Word) (s : State) : Host.Outcome State Fault Refusal := finish (opNop (.abx a)) s

/-- NOP zero-page,X, 0x34 (R258). -/
def execNopZpx34 (b : Byte) (s : State) : Host.Outcome State Fault Refusal := finish (opNop (.zpx b)) s

/-- NOP implied, 0x3A (R258). -/
def execNopImp3A (s : State) : Host.Outcome State Fault Refusal := finish (opNop .imp) s

/-- NOP absolute,X, 0x3C (R258). -/
def execNopAbx3C (a : Word) (s : State) : Host.Outcome State Fault Refusal := finish (opNop (.abx a)) s

/-- NOP zero-page, 0x44 (R258). -/
def execNopZp44 (b : Byte) (s : State) : Host.Outcome State Fault Refusal := finish (opNop (.zp b)) s

/-- NOP zero-page,X, 0x54 (R258). -/
def execNopZpx54 (b : Byte) (s : State) : Host.Outcome State Fault Refusal := finish (opNop (.zpx b)) s

/-- NOP implied, 0x5A (R258). -/
def execNopImp5A (s : State) : Host.Outcome State Fault Refusal := finish (opNop .imp) s

/-- NOP absolute,X, 0x5C (R258). -/
def execNopAbx5C (a : Word) (s : State) : Host.Outcome State Fault Refusal := finish (opNop (.abx a)) s

/-- NOP zero-page, 0x64 (R258). -/
def execNopZp64 (b : Byte) (s : State) : Host.Outcome State Fault Refusal := finish (opNop (.zp b)) s

/-- NOP zero-page,X, 0x74 (R258). -/
def execNopZpx74 (b : Byte) (s : State) : Host.Outcome State Fault Refusal := finish (opNop (.zpx b)) s

/-- NOP implied, 0x7A (R258). -/
def execNopImp7A (s : State) : Host.Outcome State Fault Refusal := finish (opNop .imp) s

/-- NOP absolute,X, 0x7C (R258). -/
def execNopAbx7C (a : Word) (s : State) : Host.Outcome State Fault Refusal := finish (opNop (.abx a)) s

/-- NOP immediate, 0x80 (R258). -/
def execNopImm80 (b : Byte) (s : State) : Host.Outcome State Fault Refusal := finish (opNop (.imm b)) s

/-- NOP immediate, 0x82 (R258). -/
def execNopImm82 (b : Byte) (s : State) : Host.Outcome State Fault Refusal := finish (opNop (.imm b)) s

/-- NOP immediate, 0x89 (R258). -/
def execNopImm89 (b : Byte) (s : State) : Host.Outcome State Fault Refusal := finish (opNop (.imm b)) s

/-- NOP immediate, 0xC2 (R258). -/
def execNopImmC2 (b : Byte) (s : State) : Host.Outcome State Fault Refusal := finish (opNop (.imm b)) s

/-- NOP zero-page,X, 0xD4 (R258). -/
def execNopZpxD4 (b : Byte) (s : State) : Host.Outcome State Fault Refusal := finish (opNop (.zpx b)) s

/-- NOP implied, 0xDA (R258). -/
def execNopImpDA (s : State) : Host.Outcome State Fault Refusal := finish (opNop .imp) s

/-- NOP absolute,X, 0xDC (R258). -/
def execNopAbxDC (a : Word) (s : State) : Host.Outcome State Fault Refusal := finish (opNop (.abx a)) s

/-- NOP immediate, 0xE2 (R258). -/
def execNopImmE2 (b : Byte) (s : State) : Host.Outcome State Fault Refusal := finish (opNop (.imm b)) s

/-- SBC immediate, 0xEB (R259). -/
def execSbcImmEB (b : Byte) (s : State) : Host.Outcome State Fault Refusal := finish (opSbc (.imm b)) s

/-- NOP zero-page,X, 0xF4 (R258). -/
def execNopZpxF4 (b : Byte) (s : State) : Host.Outcome State Fault Refusal := finish (opNop (.zpx b)) s

/-- NOP implied, 0xFA (R258). -/
def execNopImpFA (s : State) : Host.Outcome State Fault Refusal := finish (opNop .imp) s

/-- NOP absolute,X, 0xFC (R258). -/
def execNopAbxFC (a : Word) (s : State) : Host.Outcome State Fault Refusal := finish (opNop (.abx a)) s

end Sys2Proof.Machine
end

