-- ==== Sys2Proof/Machine/Dispatch.lean ====
section
/-! DEFINITION. Dispatch (R99): one arm per constructor of Instr, each one direct call of its meaning. -/

namespace Sys2Proof.Machine

def exec (i : Instr) (s : State) : Host.Outcome State Fault Refusal :=
  match i with
  | .ldaIzx b => Sys2Proof.Machine.execLdaIzx b s
  | .ldaZp b => Sys2Proof.Machine.execLdaZp b s
  | .ldaImm b => Sys2Proof.Machine.execLdaImm b s
  | .ldaAbs a => Sys2Proof.Machine.execLdaAbs a s
  | .ldaIzy b => Sys2Proof.Machine.execLdaIzy b s
  | .ldaZpx b => Sys2Proof.Machine.execLdaZpx b s
  | .ldaAby a => Sys2Proof.Machine.execLdaAby a s
  | .ldaAbx a => Sys2Proof.Machine.execLdaAbx a s
  | .ldxImm b => Sys2Proof.Machine.execLdxImm b s
  | .ldxZp b => Sys2Proof.Machine.execLdxZp b s
  | .ldxAbs a => Sys2Proof.Machine.execLdxAbs a s
  | .ldxZpy b => Sys2Proof.Machine.execLdxZpy b s
  | .ldxAby a => Sys2Proof.Machine.execLdxAby a s
  | .ldyImm b => Sys2Proof.Machine.execLdyImm b s
  | .ldyZp b => Sys2Proof.Machine.execLdyZp b s
  | .ldyAbs a => Sys2Proof.Machine.execLdyAbs a s
  | .ldyZpx b => Sys2Proof.Machine.execLdyZpx b s
  | .ldyAbx a => Sys2Proof.Machine.execLdyAbx a s
  | .staIzx b => Sys2Proof.Machine.execStaIzx b s
  | .staZp b => Sys2Proof.Machine.execStaZp b s
  | .staAbs a => Sys2Proof.Machine.execStaAbs a s
  | .staIzy b => Sys2Proof.Machine.execStaIzy b s
  | .staZpx b => Sys2Proof.Machine.execStaZpx b s
  | .staAby a => Sys2Proof.Machine.execStaAby a s
  | .staAbx a => Sys2Proof.Machine.execStaAbx a s
  | .stxZp b => Sys2Proof.Machine.execStxZp b s
  | .stxAbs a => Sys2Proof.Machine.execStxAbs a s
  | .stxZpy b => Sys2Proof.Machine.execStxZpy b s
  | .styZp b => Sys2Proof.Machine.execStyZp b s
  | .styAbs a => Sys2Proof.Machine.execStyAbs a s
  | .styZpx b => Sys2Proof.Machine.execStyZpx b s
  | .tax => Sys2Proof.Machine.execTax s
  | .tay => Sys2Proof.Machine.execTay s
  | .txa => Sys2Proof.Machine.execTxa s
  | .tya => Sys2Proof.Machine.execTya s
  | .tsx => Sys2Proof.Machine.execTsx s
  | .txs => Sys2Proof.Machine.execTxs s
  | .adcIzx b => Sys2Proof.Machine.execAdcIzx b s
  | .adcZp b => Sys2Proof.Machine.execAdcZp b s
  | .adcImm b => Sys2Proof.Machine.execAdcImm b s
  | .adcAbs a => Sys2Proof.Machine.execAdcAbs a s
  | .adcIzy b => Sys2Proof.Machine.execAdcIzy b s
  | .adcZpx b => Sys2Proof.Machine.execAdcZpx b s
  | .adcAby a => Sys2Proof.Machine.execAdcAby a s
  | .adcAbx a => Sys2Proof.Machine.execAdcAbx a s
  | .sbcIzx b => Sys2Proof.Machine.execSbcIzx b s
  | .sbcZp b => Sys2Proof.Machine.execSbcZp b s
  | .sbcImm b => Sys2Proof.Machine.execSbcImm b s
  | .sbcAbs a => Sys2Proof.Machine.execSbcAbs a s
  | .sbcIzy b => Sys2Proof.Machine.execSbcIzy b s
  | .sbcZpx b => Sys2Proof.Machine.execSbcZpx b s
  | .sbcAby a => Sys2Proof.Machine.execSbcAby a s
  | .sbcAbx a => Sys2Proof.Machine.execSbcAbx a s
  | .andIzx b => Sys2Proof.Machine.execAndIzx b s
  | .andZp b => Sys2Proof.Machine.execAndZp b s
  | .andImm b => Sys2Proof.Machine.execAndImm b s
  | .andAbs a => Sys2Proof.Machine.execAndAbs a s
  | .andIzy b => Sys2Proof.Machine.execAndIzy b s
  | .andZpx b => Sys2Proof.Machine.execAndZpx b s
  | .andAby a => Sys2Proof.Machine.execAndAby a s
  | .andAbx a => Sys2Proof.Machine.execAndAbx a s
  | .oraIzx b => Sys2Proof.Machine.execOraIzx b s
  | .oraZp b => Sys2Proof.Machine.execOraZp b s
  | .oraImm b => Sys2Proof.Machine.execOraImm b s
  | .oraAbs a => Sys2Proof.Machine.execOraAbs a s
  | .oraIzy b => Sys2Proof.Machine.execOraIzy b s
  | .oraZpx b => Sys2Proof.Machine.execOraZpx b s
  | .oraAby a => Sys2Proof.Machine.execOraAby a s
  | .oraAbx a => Sys2Proof.Machine.execOraAbx a s
  | .eorIzx b => Sys2Proof.Machine.execEorIzx b s
  | .eorZp b => Sys2Proof.Machine.execEorZp b s
  | .eorImm b => Sys2Proof.Machine.execEorImm b s
  | .eorAbs a => Sys2Proof.Machine.execEorAbs a s
  | .eorIzy b => Sys2Proof.Machine.execEorIzy b s
  | .eorZpx b => Sys2Proof.Machine.execEorZpx b s
  | .eorAby a => Sys2Proof.Machine.execEorAby a s
  | .eorAbx a => Sys2Proof.Machine.execEorAbx a s
  | .cmpIzx b => Sys2Proof.Machine.execCmpIzx b s
  | .cmpZp b => Sys2Proof.Machine.execCmpZp b s
  | .cmpImm b => Sys2Proof.Machine.execCmpImm b s
  | .cmpAbs a => Sys2Proof.Machine.execCmpAbs a s
  | .cmpIzy b => Sys2Proof.Machine.execCmpIzy b s
  | .cmpZpx b => Sys2Proof.Machine.execCmpZpx b s
  | .cmpAby a => Sys2Proof.Machine.execCmpAby a s
  | .cmpAbx a => Sys2Proof.Machine.execCmpAbx a s
  | .cpxImm b => Sys2Proof.Machine.execCpxImm b s
  | .cpxZp b => Sys2Proof.Machine.execCpxZp b s
  | .cpxAbs a => Sys2Proof.Machine.execCpxAbs a s
  | .cpyImm b => Sys2Proof.Machine.execCpyImm b s
  | .cpyZp b => Sys2Proof.Machine.execCpyZp b s
  | .cpyAbs a => Sys2Proof.Machine.execCpyAbs a s
  | .bitZp b => Sys2Proof.Machine.execBitZp b s
  | .bitAbs a => Sys2Proof.Machine.execBitAbs a s
  | .incZp b => Sys2Proof.Machine.execIncZp b s
  | .incAbs a => Sys2Proof.Machine.execIncAbs a s
  | .incZpx b => Sys2Proof.Machine.execIncZpx b s
  | .incAbx a => Sys2Proof.Machine.execIncAbx a s
  | .decZp b => Sys2Proof.Machine.execDecZp b s
  | .decAbs a => Sys2Proof.Machine.execDecAbs a s
  | .decZpx b => Sys2Proof.Machine.execDecZpx b s
  | .decAbx a => Sys2Proof.Machine.execDecAbx a s
  | .inx => Sys2Proof.Machine.execInx s
  | .iny => Sys2Proof.Machine.execIny s
  | .dex => Sys2Proof.Machine.execDex s
  | .dey => Sys2Proof.Machine.execDey s
  | .aslZp b => Sys2Proof.Machine.execAslZp b s
  | .aslAcc => Sys2Proof.Machine.execAslAcc s
  | .aslAbs a => Sys2Proof.Machine.execAslAbs a s
  | .aslZpx b => Sys2Proof.Machine.execAslZpx b s
  | .aslAbx a => Sys2Proof.Machine.execAslAbx a s
  | .lsrZp b => Sys2Proof.Machine.execLsrZp b s
  | .lsrAcc => Sys2Proof.Machine.execLsrAcc s
  | .lsrAbs a => Sys2Proof.Machine.execLsrAbs a s
  | .lsrZpx b => Sys2Proof.Machine.execLsrZpx b s
  | .lsrAbx a => Sys2Proof.Machine.execLsrAbx a s
  | .rolZp b => Sys2Proof.Machine.execRolZp b s
  | .rolAcc => Sys2Proof.Machine.execRolAcc s
  | .rolAbs a => Sys2Proof.Machine.execRolAbs a s
  | .rolZpx b => Sys2Proof.Machine.execRolZpx b s
  | .rolAbx a => Sys2Proof.Machine.execRolAbx a s
  | .rorZp b => Sys2Proof.Machine.execRorZp b s
  | .rorAcc => Sys2Proof.Machine.execRorAcc s
  | .rorAbs a => Sys2Proof.Machine.execRorAbs a s
  | .rorZpx b => Sys2Proof.Machine.execRorZpx b s
  | .rorAbx a => Sys2Proof.Machine.execRorAbx a s
  | .bcc b => Sys2Proof.Machine.execBcc b s
  | .bcs b => Sys2Proof.Machine.execBcs b s
  | .beq b => Sys2Proof.Machine.execBeq b s
  | .bne b => Sys2Proof.Machine.execBne b s
  | .bmi b => Sys2Proof.Machine.execBmi b s
  | .bpl b => Sys2Proof.Machine.execBpl b s
  | .bvc b => Sys2Proof.Machine.execBvc b s
  | .bvs b => Sys2Proof.Machine.execBvs b s
  | .jmpAbs a => Sys2Proof.Machine.execJmpAbs a s
  | .jmpInd a => Sys2Proof.Machine.execJmpInd a s
  | .jsr a => Sys2Proof.Machine.execJsr a s
  | .rts => Sys2Proof.Machine.execRts s
  | .brk => Sys2Proof.Machine.execBrk s
  | .rti => Sys2Proof.Machine.execRti s
  | .pha => Sys2Proof.Machine.execPha s
  | .pla => Sys2Proof.Machine.execPla s
  | .php => Sys2Proof.Machine.execPhp s
  | .plp => Sys2Proof.Machine.execPlp s
  | .clc => Sys2Proof.Machine.execClc s
  | .sec => Sys2Proof.Machine.execSec s
  | .cli => Sys2Proof.Machine.execCli s
  | .sei => Sys2Proof.Machine.execSei s
  | .cld => Sys2Proof.Machine.execCld s
  | .sed => Sys2Proof.Machine.execSed s
  | .clv => Sys2Proof.Machine.execClv s
  | .nop => Sys2Proof.Machine.execNop s
  | .laxIzx b => Sys2Proof.Machine.execLaxIzx b s
  | .laxZp b => Sys2Proof.Machine.execLaxZp b s
  | .laxAbs a => Sys2Proof.Machine.execLaxAbs a s
  | .laxIzy b => Sys2Proof.Machine.execLaxIzy b s
  | .laxZpy b => Sys2Proof.Machine.execLaxZpy b s
  | .laxAby a => Sys2Proof.Machine.execLaxAby a s
  | .saxIzx b => Sys2Proof.Machine.execSaxIzx b s
  | .saxZp b => Sys2Proof.Machine.execSaxZp b s
  | .saxAbs a => Sys2Proof.Machine.execSaxAbs a s
  | .saxZpy b => Sys2Proof.Machine.execSaxZpy b s
  | .sloIzx b => Sys2Proof.Machine.execSloIzx b s
  | .sloZp b => Sys2Proof.Machine.execSloZp b s
  | .sloAbs a => Sys2Proof.Machine.execSloAbs a s
  | .sloIzy b => Sys2Proof.Machine.execSloIzy b s
  | .sloZpx b => Sys2Proof.Machine.execSloZpx b s
  | .sloAby a => Sys2Proof.Machine.execSloAby a s
  | .sloAbx a => Sys2Proof.Machine.execSloAbx a s
  | .rlaIzx b => Sys2Proof.Machine.execRlaIzx b s
  | .rlaZp b => Sys2Proof.Machine.execRlaZp b s
  | .rlaAbs a => Sys2Proof.Machine.execRlaAbs a s
  | .rlaIzy b => Sys2Proof.Machine.execRlaIzy b s
  | .rlaZpx b => Sys2Proof.Machine.execRlaZpx b s
  | .rlaAby a => Sys2Proof.Machine.execRlaAby a s
  | .rlaAbx a => Sys2Proof.Machine.execRlaAbx a s
  | .sreIzx b => Sys2Proof.Machine.execSreIzx b s
  | .sreZp b => Sys2Proof.Machine.execSreZp b s
  | .sreAbs a => Sys2Proof.Machine.execSreAbs a s
  | .sreIzy b => Sys2Proof.Machine.execSreIzy b s
  | .sreZpx b => Sys2Proof.Machine.execSreZpx b s
  | .sreAby a => Sys2Proof.Machine.execSreAby a s
  | .sreAbx a => Sys2Proof.Machine.execSreAbx a s
  | .rraIzx b => Sys2Proof.Machine.execRraIzx b s
  | .rraZp b => Sys2Proof.Machine.execRraZp b s
  | .rraAbs a => Sys2Proof.Machine.execRraAbs a s
  | .rraIzy b => Sys2Proof.Machine.execRraIzy b s
  | .rraZpx b => Sys2Proof.Machine.execRraZpx b s
  | .rraAby a => Sys2Proof.Machine.execRraAby a s
  | .rraAbx a => Sys2Proof.Machine.execRraAbx a s
  | .dcpIzx b => Sys2Proof.Machine.execDcpIzx b s
  | .dcpZp b => Sys2Proof.Machine.execDcpZp b s
  | .dcpAbs a => Sys2Proof.Machine.execDcpAbs a s
  | .dcpIzy b => Sys2Proof.Machine.execDcpIzy b s
  | .dcpZpx b => Sys2Proof.Machine.execDcpZpx b s
  | .dcpAby a => Sys2Proof.Machine.execDcpAby a s
  | .dcpAbx a => Sys2Proof.Machine.execDcpAbx a s
  | .isbIzx b => Sys2Proof.Machine.execIsbIzx b s
  | .isbZp b => Sys2Proof.Machine.execIsbZp b s
  | .isbAbs a => Sys2Proof.Machine.execIsbAbs a s
  | .isbIzy b => Sys2Proof.Machine.execIsbIzy b s
  | .isbZpx b => Sys2Proof.Machine.execIsbZpx b s
  | .isbAby a => Sys2Proof.Machine.execIsbAby a s
  | .isbAbx a => Sys2Proof.Machine.execIsbAbx a s
  | .nopZp04 b => Sys2Proof.Machine.execNopZp04 b s
  | .nopAbs0C a => Sys2Proof.Machine.execNopAbs0C a s
  | .nopZpx14 b => Sys2Proof.Machine.execNopZpx14 b s
  | .nopImp1A => Sys2Proof.Machine.execNopImp1A s
  | .nopAbx1C a => Sys2Proof.Machine.execNopAbx1C a s
  | .nopZpx34 b => Sys2Proof.Machine.execNopZpx34 b s
  | .nopImp3A => Sys2Proof.Machine.execNopImp3A s
  | .nopAbx3C a => Sys2Proof.Machine.execNopAbx3C a s
  | .nopZp44 b => Sys2Proof.Machine.execNopZp44 b s
  | .nopZpx54 b => Sys2Proof.Machine.execNopZpx54 b s
  | .nopImp5A => Sys2Proof.Machine.execNopImp5A s
  | .nopAbx5C a => Sys2Proof.Machine.execNopAbx5C a s
  | .nopZp64 b => Sys2Proof.Machine.execNopZp64 b s
  | .nopZpx74 b => Sys2Proof.Machine.execNopZpx74 b s
  | .nopImp7A => Sys2Proof.Machine.execNopImp7A s
  | .nopAbx7C a => Sys2Proof.Machine.execNopAbx7C a s
  | .nopImm80 b => Sys2Proof.Machine.execNopImm80 b s
  | .nopImm82 b => Sys2Proof.Machine.execNopImm82 b s
  | .nopImm89 b => Sys2Proof.Machine.execNopImm89 b s
  | .nopImmC2 b => Sys2Proof.Machine.execNopImmC2 b s
  | .nopZpxD4 b => Sys2Proof.Machine.execNopZpxD4 b s
  | .nopImpDA => Sys2Proof.Machine.execNopImpDA s
  | .nopAbxDC a => Sys2Proof.Machine.execNopAbxDC a s
  | .nopImmE2 b => Sys2Proof.Machine.execNopImmE2 b s
  | .sbcImmEB b => Sys2Proof.Machine.execSbcImmEB b s
  | .nopZpxF4 b => Sys2Proof.Machine.execNopZpxF4 b s
  | .nopImpFA => Sys2Proof.Machine.execNopImpFA s
  | .nopAbxFC a => Sys2Proof.Machine.execNopAbxFC a s

end Sys2Proof.Machine
end

