-- ==== Sys2Proof/Machine/Fetch.lean ====
section
/-! DEFINITION. Fetching an instruction (R80, R307): opcode, decode, operand bytes, each byte read through the arbiter
at PC with PC advancing past it; and placing an instruction's bytes where the next fetch will find them. -/

namespace Sys2Proof.Machine

/-- The operand byte of an IMMEDIATE form. The resolver only advances PC (R114); a handler that reads its operand
then reads it, so that a fault leaves PC past the instruction (R275). The optional NOP forms do not read it (R258):
the byte, which their meaning ignores, is filled in where it can be read and is 0x00 where it cannot. -/
def immediateByte (isNop : Bool) : M Byte := do
  let ea ← look State.pc
  setPC (ea + 1)
  if isNop then look fun s => (s.read ea).getD 0x00 else memRead ea

/-- The operand bytes of a decoded opcode, low byte first (R58, R111, R114 to R121), making the instruction. -/
def fetchOperand (row : OpcodeRow) : M Instr :=
  match row.build with
  | .alone i => return i
  | .byte mk => do
    if row.mode = .immediate then return mk (← immediateByte (row.mnemonic == .NOP))
    else return mk (← fetch8)
  | .word mk => do
    let lo ← fetch8
    let hi ← fetch8
    return mk (wordOf hi lo)

/-- Fetches and decodes the instruction at PC (R307): a DecodeError carries the opcode and the address it was fetched
from (R271), and is raised before any operand byte is fetched (R280). -/
def fetchInstr : M Instr := do
  let pc0 ← look State.pc
  let op ← fetch8
  match opcodeEntry (← look State.extUndoc) op with
  | none => raise (.decodeError op pc0)
  | some row => fetchOperand row

/-- `P.R <- 1`, the last line of `Step` (R307, R20). -/
def State.keepReserved (s : State) : State := s.setP (putFlag s.p .R true)

/-! ### Placing an instruction from outside the machine -/

/-- Puts a byte behind an address, program ROM included: what a loader does, not a store of the machine. An address
that reaches nothing takes nothing. -/
def State.loadByte (s : State) (addr : Word) (v : Byte) : State :=
  match s.locate addr with
  | some place => s.writePlace v place
  | none => s

/-- Puts bytes behind consecutive addresses (mod 65536). -/
def State.loadBytes (s : State) (addr : Word) : List Byte → State
  | [] => s
  | v :: rest => (s.loadByte addr v).loadBytes (addr + 1) rest

/-- Makes the next step fetch and run the instruction these bytes hold: they lie at PC, no fault is latched, and
`EXT_UNDOC` is true if the opcode is an optional one (R89). -/
def State.placeInstr (s : State) (bytes : List Byte) : State :=
  let needsExt := match bytes with
    | op :: _ => (opcodeEntry false op).isNone && (opcodeEntry true op).isSome
    | [] => false
  ((s.loadBytes s.pc bytes).setFault none).setExtUndoc (s.extUndoc || needsExt)

end Sys2Proof.Machine
end

