-- ==== Sys2Proof/Machine/Step.lean ====
section
/-! DEFINITION. One step of the machine (R307) and the placing of an instruction for the next one. -/

namespace Sys2Proof.Machine

/-- `Step()` (R307). A faulted machine returns the same fault again and changes nothing (R274); otherwise the
instruction at PC is fetched, decoded and executed with PC past it, and the Reserved bit is kept 1. -/
def step (s : State) : Host.Outcome State Fault Refusal :=
  match s.fault with
  | some r => .fault (r.toFault s)
  | none =>
    match fetchInstr s with
    | .error r t => .fault (latched r t)
    | .ok i t =>
      match exec i t with
      | .next u => .next u.keepReserved
      | .fault f => .fault f
      | .refused r => .refused r

/-- The state with the instruction of a table word stored where `step` fetches its next instruction: at PC, three
bytes, those above `nbits` zero. -/
def State.withFetchWord (s : State) (nbits w : Nat) : State := s.placeInstr (tableWordBytes nbits w)

end Sys2Proof.Machine
end

