-- ==== Sys2Proof/Machine/Disasm.lean ====
section
/-! DEFINITION. The disassembler `Disasm` (R94 to R96): a pure function of three bytes over the same opcode table the
machine decodes with (R12, R98). The text is computed as a list of characters. -/

namespace Sys2Proof.Machine

/-- The three upper-case letters of a mnemonic (R92). -/
def mnemonicChars : Mnemonic → List Char
  | .LDA => ['L', 'D', 'A'] | .LDX => ['L', 'D', 'X'] | .LDY => ['L', 'D', 'Y']
  | .STA => ['S', 'T', 'A'] | .STX => ['S', 'T', 'X'] | .STY => ['S', 'T', 'Y']
  | .TAX => ['T', 'A', 'X'] | .TAY => ['T', 'A', 'Y'] | .TXA => ['T', 'X', 'A']
  | .TYA => ['T', 'Y', 'A'] | .TSX => ['T', 'S', 'X'] | .TXS => ['T', 'X', 'S']
  | .ADC => ['A', 'D', 'C'] | .SBC => ['S', 'B', 'C'] | .AND => ['A', 'N', 'D']
  | .ORA => ['O', 'R', 'A'] | .EOR => ['E', 'O', 'R'] | .CMP => ['C', 'M', 'P']
  | .CPX => ['C', 'P', 'X'] | .CPY => ['C', 'P', 'Y'] | .BIT => ['B', 'I', 'T']
  | .INC => ['I', 'N', 'C'] | .DEC => ['D', 'E', 'C'] | .INX => ['I', 'N', 'X']
  | .INY => ['I', 'N', 'Y'] | .DEX => ['D', 'E', 'X'] | .DEY => ['D', 'E', 'Y']
  | .ASL => ['A', 'S', 'L'] | .LSR => ['L', 'S', 'R'] | .ROL => ['R', 'O', 'L']
  | .ROR => ['R', 'O', 'R'] | .BCC => ['B', 'C', 'C'] | .BCS => ['B', 'C', 'S']
  | .BEQ => ['B', 'E', 'Q'] | .BNE => ['B', 'N', 'E'] | .BMI => ['B', 'M', 'I']
  | .BPL => ['B', 'P', 'L'] | .BVC => ['B', 'V', 'C'] | .BVS => ['B', 'V', 'S']
  | .JMP => ['J', 'M', 'P'] | .JSR => ['J', 'S', 'R'] | .RTS => ['R', 'T', 'S']
  | .BRK => ['B', 'R', 'K'] | .RTI => ['R', 'T', 'I'] | .PHA => ['P', 'H', 'A']
  | .PLA => ['P', 'L', 'A'] | .PHP => ['P', 'H', 'P'] | .PLP => ['P', 'L', 'P']
  | .CLC => ['C', 'L', 'C'] | .SEC => ['S', 'E', 'C'] | .CLI => ['C', 'L', 'I']
  | .SEI => ['S', 'E', 'I'] | .CLD => ['C', 'L', 'D'] | .SED => ['S', 'E', 'D']
  | .CLV => ['C', 'L', 'V'] | .NOP => ['N', 'O', 'P'] | .LAX => ['L', 'A', 'X']
  | .SAX => ['S', 'A', 'X'] | .SLO => ['S', 'L', 'O'] | .RLA => ['R', 'L', 'A']
  | .SRE => ['S', 'R', 'E'] | .RRA => ['R', 'R', 'A'] | .DCP => ['D', 'C', 'P']
  | .ISB => ['I', 'S', 'B'] | .UNK => ['U', 'N', 'K']

/-- The upper-case hexadecimal digit of a number below 16. -/
def hexDigit (n : Nat) : Char := if n < 10 then Char.ofNat (48 + n) else Char.ofNat (55 + n)

/-- `HH(b)`: the two hexadecimal digits of a byte, high digit first (R95). -/
def hexByte (b : Byte) : List Char := [hexDigit (b.toNat / 16), hexDigit (b.toNat % 16)]

/-- What follows the mnemonic, by mode tag (R95). -/
def operandChars (mode : AddrMode) (b1 b2 : Byte) : List Char :=
  match mode with
  | .implied | .unknown => []
  | .accumulator => [' ', 'A']
  | .immediate => [' ', '#', '$'] ++ hexByte b1
  | .zeropage => [' ', '$'] ++ hexByte b1
  | .zeropageX => [' ', '$'] ++ hexByte b1 ++ [',', 'X']
  | .zeropageY => [' ', '$'] ++ hexByte b1 ++ [',', 'Y']
  | .absolute => [' ', '$'] ++ hexByte b2 ++ hexByte b1
  | .absoluteX => [' ', '$'] ++ hexByte b2 ++ hexByte b1 ++ [',', 'X']
  | .absoluteY => [' ', '$'] ++ hexByte b2 ++ hexByte b1 ++ [',', 'Y']
  | .indirect => [' ', '(', '$'] ++ hexByte b2 ++ hexByte b1 ++ [')']
  | .indirectX => [' ', '(', '$'] ++ hexByte b1 ++ [',', 'X', ')']
  | .indirectY => [' ', '(', '$'] ++ hexByte b1 ++ [')', ',', 'Y']
  | .relative => [' ', '$'] ++ hexByte b1 ++ [' ', '(', '+', 'P', 'C', ')']

/-- The characters of the text and the instruction's length (R94). -/
def disasmChars (ext : Bool) (b0 b1 b2 : Byte) : List Char × Nat :=
  let d := decodeOp ext b0
  (mnemonicChars d.1 ++ operandChars d.2 b1 b2, d.2.length)

/-- `Disasm(b0, b1, b2)`: the text and the length (R94). -/
def disasm (ext : Bool) (b0 b1 b2 : Byte) : String × Nat :=
  let r := disasmChars ext b0 b1 b2
  (String.ofList r.1, r.2)

end Sys2Proof.Machine
end

