-- ==== Sys2Proof/Machine/Init.lean ====
section
/-! DEFINITION. Initialisation: the ROM descriptor (R56), the `rom_bank_selector` with its one strategy NROM (R52 to
R55), `BusInit` (R51), `CpuInit` (R302), `Init` (R300) and the driver's launch with its selector lookup (R55). -/

namespace Sys2Proof.Machine

/-- The ROM descriptor (R56). The core reads `prg`, `prgUnits` and `mapperNumber` only (R32). -/
structure RomDescriptor where
  prg : Memory
  prgUnits : Nat
  chr : Memory
  chrUnits : Nat
  mapperNumber : Nat
  fourScreen : Bool
  trainer : Bool
  battery : Bool
  verticalMirroring : Bool
  deriving DecidableEq, Repr

/-- The precondition of R57 in the model's terms: the image is in canonical form and lists nothing outside
`PRG_UNITS * 16384` bytes. -/
def RomDescriptor.wf (d : RomDescriptor) : Bool := d.prg.wf && d.prg.within (Config.unitSize * d.prgUnits)

/-- One slot a selector returns: `PRGSLICE(slice, writable)` (R52). -/
structure Slot where
  slice : Nat
  writable : Bool
  deriving DecidableEq, Repr

/-- `Ok(slot[0..3]) | Err(reason)` (R52). -/
inductive SelectorResult where
  | ok (slots : Vector Slot 4)
  | err (reason : ConfigReason)
  deriving DecidableEq, Repr

/-- A selector strategy: the one capability `reset(desc)` (R52). -/
abbrev Selector := RomDescriptor → SelectorResult

/-- The contract of R52: every slot a strategy returns is a slice of the image. -/
def Selector.InRange (sel : Selector) : Prop :=
  ∀ d slots, sel d = .ok slots → ∀ i : Fin 4, slots[i].slice < Config.slicesPerUnit * d.prgUnits

/-- The NROM strategy (R53, R54): 1 or 2 units, no slot writable (R48). -/
def nrom : Selector := fun d =>
  match d.prgUnits with
  | 1 => .ok #v[⟨0, false⟩, ⟨1, false⟩, ⟨0, false⟩, ⟨1, false⟩]
  | 2 => .ok #v[⟨0, false⟩, ⟨1, false⟩, ⟨2, false⟩, ⟨3, false⟩]
  | n => .err (.unsupportedPrgUnits n)

/-- The registry of strategies: mapper number 0 is NROM, no other number has one (R55, D18). -/
def selectorFor : Nat → Option Selector
  | 0 => some nrom
  | _ => none

/-- What an initialisation ends in: a machine, or a fault after which no machine exists (R273, R300). -/
inductive Launch where
  | machine (s : State)
  | failed (r : FaultRecord)
  deriving DecidableEq, Repr

/-- What the arbiter holds after `BusInit` (R51). -/
structure Bus where
  ram : Memory
  sram : Memory
  prg : Memory
  prgUnits : Nat
  bank : Vector BankEntry 8
  deriving DecidableEq, Repr

/-- The bank table with the four cartridge banks given (R51). -/
def bankTable (b4 b5 b6 b7 : BankEntry) : Vector BankEntry 8 :=
  #v[.sysRam, .unassigned, .unassigned, .saveRam, b4, b5, b6, b7]

/-- A selector's slot as a bank-table entry (R52). -/
def Slot.entry (t : Slot) : BankEntry := .prgSlice t.slice t.writable

/-- `BusInit(desc, selector)` (R51): without a selector banks 4 to 7 stay unassigned (R50). -/
def busInit (d : RomDescriptor) (selector : Option Selector) (ramInit sramInit : Memory) : Except FaultRecord Bus :=
  match selector with
  | none => .ok ⟨ramInit, sramInit, d.prg, d.prgUnits, bankTable .unassigned .unassigned .unassigned .unassigned⟩
  | some sel =>
    match sel d with
    | .err reason => .error (.configurationError reason)
    | .ok slots => .ok ⟨ramInit, sramInit, d.prg, d.prgUnits,
        bankTable slots[0].entry slots[1].entry slots[2].entry slots[3].entry⟩

/-- The registers `CpuInit` sets (R302), over the memories of the arbiter, `FAULT` none (R300). -/
def Bus.withCpu (b : Bus) (pc : Word) (extUndoc : Bool) : State where
  pc := pc
  a := 0x00
  x := 0x00
  y := 0x00
  sp := 0xFD
  p := 0x34
  ram := b.ram
  sram := b.sram
  prg := b.prg
  prgUnits := b.prgUnits
  bank := b.bank
  extUndoc := extUndoc
  fault := none

/-- `CpuInit(PC_OVERRIDE)` (R302): PC takes the reset vector's word, low byte read first, or the override, and then
the vector is not read (R303). -/
def cpuInit (b : Bus) (pcOverride : Option Word) (extUndoc : Bool) : Launch :=
  match pcOverride with
  | some v => .machine (b.withCpu v extUndoc)
  | none =>
    match memRead16 Config.vecReset (Config.vecReset + 1) (b.withCpu 0 extUndoc) with
    | .ok v _ => .machine (b.withCpu v extUndoc)
    | .error r _ => .failed r

/-- `Init` (R300): `BusInit`, then `CpuInit`. A second `Init` is a new machine (R312). -/
def init (d : RomDescriptor) (selector : Option Selector) (ramInit sramInit : Memory) (pcOverride : Option Word)
    (extUndoc : Bool) : Launch :=
  match busInit d selector ramInit sramInit with
  | .error r => .failed r
  | .ok b => cpuInit b pcOverride extUndoc

/-- The driver's launch: the selector is looked up by the descriptor's mapper number (R55). -/
def launch (d : RomDescriptor) (ramInit sramInit : Memory) (pcOverride : Option Word) (extUndoc : Bool) : Launch :=
  match selectorFor d.mapperNumber with
  | none => .failed (.configurationError (.noSelectorForMapper d.mapperNumber))
  | some sel => init d (some sel) ramInit sramInit pcOverride extUndoc

end Sys2Proof.Machine
end

