-- ==== Sys2Proof/Safety.lean ====
section
/-! DEFINITION. What counts as a legal state and a safe run, in the terms the statements use. -/

namespace Sys2Proof.Machine

/-- A cartridge bank's entry as a selector may leave it: unassigned, or a slice of the image (R31, R52). -/
def BankEntry.legalCartridge (prgUnits : Nat) : BankEntry → Bool
  | .unassigned => true
  | .prgSlice k _ => decide (k < Config.slicesPerUnit * prgUnits)
  | .sysRam | .saveRam => false

/-- The bank table as `BusInit` leaves it (R31, R49, R51). -/
def State.legalBanks (s : State) : Bool :=
  s.bank[0] == .sysRam && s.bank[1] == .unassigned && s.bank[2] == .unassigned && s.bank[3] == .saveRam &&
  s.bank[4].legalCartridge s.prgUnits && s.bank[5].legalCartridge s.prgUnits &&
  s.bank[6].legalCartridge s.prgUnits && s.bank[7].legalCartridge s.prgUnits

/-- The invariant of every machine: the three memories are in canonical form and inside their sizes (R28 to R30), the
bank table is legal (R31), and the Reserved bit is 1 (R20). -/
abbrev State.Inv (s : State) : Prop :=
  (s.ram.wf = true ∧ s.ram.within Config.ramSize = true) ∧
  (s.sram.wf = true ∧ s.sram.within Config.saveRamSize = true) ∧
  (s.prg.wf = true ∧ s.prg.within (Config.unitSize * s.prgUnits) = true) ∧
  s.legalBanks = true ∧
  s.flag .R = true

/-- A safe run: `n` steps from `s` end in a next state, with no fault and no refusal on the way (R9). -/
def SafeRun (n : Nat) (s : State) : Prop := ∃ t : State, Host.Core.run Sys2Proof.core n s = .next t

end Sys2Proof.Machine
end

