-- ==== Sys2Proof/Certificates/Slice0/Obligations.lean ====
section
/-! DEFINITION. What is claimed of the machine, for the provers. Throughout, `exec i s` runs instruction `i` from the
state `s` in which PC is already past it (R307), and an instruction is named by its mnemonic, so a statement about a
mnemonic holds for every opcode-table row of it. Where a rule the spec marks [from general knowledge] or [decision]
stands behind a clause, the statement is "derived" and its docstring names it. -/

open Sys2Proof Sys2Proof.Machine

/-! ### Words the statements share -/

namespace Sys2Proof.Claims

/-- Every flag outside the list is the same in both status bytes (R6: a flag write leaves the others). -/
def KeepsFlags (p q : Byte) (written : List Flag) : Prop := ∀ f, f ∉ written → getFlag q f = getFlag p f

/-- Z and S of the status byte describe the byte `r` (R131). -/
def ZSOf (p r : Byte) : Prop := getFlag p .Z = decide (r.toNat = 0) ∧ getFlag p .S = decide (128 ≤ r.toNat)

/-- The byte a transfer or a register step leaves in its destination, and the state with it there (R161 to R166, R186
to R189). -/
def registerResult (s : State) : Mnemonic → Option (Byte × State)
  | .TAX => some (s.a, s.setX s.a)
  | .TAY => some (s.a, s.setY s.a)
  | .TXA => some (s.x, s.setA s.x)
  | .TYA => some (s.y, s.setA s.y)
  | .TSX => some (s.sp, s.setX s.sp)
  | .INX => some (BitVec.ofNat 8 (s.x.toNat + 1), s.setX (BitVec.ofNat 8 (s.x.toNat + 1)))
  | .INY => some (BitVec.ofNat 8 (s.y.toNat + 1), s.setY (BitVec.ofNat 8 (s.y.toNat + 1)))
  | .DEX => some (BitVec.ofNat 8 (s.x.toNat + 255), s.setX (BitVec.ofNat 8 (s.x.toNat + 255)))
  | .DEY => some (BitVec.ofNat 8 (s.y.toNat + 255), s.setY (BitVec.ofNat 8 (s.y.toNat + 255)))
  | _ => none

/-- The byte a store instruction writes (R158 to R160, R251). -/
def storedByte (s : State) : Mnemonic → Option Byte
  | .STA => some s.a
  | .STX => some s.x
  | .STY => some s.y
  | .SAX => some (s.a &&& s.x)
  | _ => none

/-- The result byte and new Carry of a shift or rotate of `v` with old Carry `c` (R138 to R141). -/
def shifted (v : Byte) (c : Bool) : Mnemonic → Option (Byte × Bool)
  | .ASL => some (BitVec.ofNat 8 (v.toNat * 2), decide (128 ≤ v.toNat))
  | .LSR => some (BitVec.ofNat 8 (v.toNat / 2), decide (v.toNat % 2 = 1))
  | .ROL => some (BitVec.ofNat 8 (v.toNat * 2 + carryNat c), decide (128 ≤ v.toNat))
  | .ROR => some (BitVec.ofNat 8 (v.toNat / 2 + carryNat c * 128), decide (v.toNat % 2 = 1))
  | _ => none

/-- The bitwise function of a logic instruction (R177 to R179). -/
def logicByte (a m : Byte) : Mnemonic → Option Byte
  | .AND => some (a &&& m)
  | .ORA => some (a ||| m)
  | .EOR => some (a ^^^ m)
  | _ => none

/-- The register a compare reads (R180 to R182). -/
def comparedRegister (s : State) : Mnemonic → Option Byte
  | .CMP => some s.a
  | .CPX => some s.x
  | .CPY => some s.y
  | _ => none

/-- The flag a branch tests and the value that takes it (R211 to R218). -/
def branchTest : Mnemonic → Option (Flag × Bool)
  | .BCC => some (.C, false) | .BCS => some (.C, true) | .BEQ => some (.Z, true) | .BNE => some (.Z, false)
  | .BMI => some (.S, true) | .BPL => some (.S, false) | .BVC => some (.V, false) | .BVS => some (.V, true)
  | _ => none

/-- The flag a set or clear instruction writes and the value it writes (R234 to R240). -/
def flagWrite : Mnemonic → Option (Flag × Bool)
  | .CLC => some (.C, false) | .SEC => some (.C, true) | .CLI => some (.I, false) | .SEI => some (.I, true)
  | .CLD => some (.D, false) | .SED => some (.D, true) | .CLV => some (.V, false)
  | _ => none

/-- The instructions that read their operand byte and store nothing. -/
def readers : List Mnemonic := [.LDA, .LDX, .LDY, .LAX, .ADC, .SBC, .AND, .ORA, .EOR, .CMP, .CPX, .CPY, .BIT]

/-- The instructions that store at their effective address without reading it. -/
def stores : List Mnemonic := [.STA, .STX, .STY, .SAX]

/-- The shifts and rotates, whose accumulator form touches no memory (R200). -/
def shifts : List Mnemonic := [.ASL, .LSR, .ROL, .ROR]

/-- The instructions that always read, change and write the byte at their effective address. -/
def modifiers : List Mnemonic := [.INC, .DEC, .SLO, .RLA, .SRE, .RRA, .DCP, .ISB]

/-- The instructions that push. -/
def pushers : List Mnemonic := [.PHA, .PHP, .JSR, .BRK]

/-- The instructions that may write PC themselves (R18). -/
def pcWriters : List Mnemonic :=
  [.BCC, .BCS, .BEQ, .BNE, .BMI, .BPL, .BVC, .BVS, .JMP, .JSR, .RTS, .BRK, .RTI]

/-- Whether an instruction stores at its effective address: a store, a read-modify-write, or the memory form of a
shift or rotate. -/
def storesAtEa (i : Instr) : Prop :=
  i.mnemonic ∈ stores ∨ i.mnemonic ∈ modifiers ∨ (i.mnemonic ∈ shifts ∧ i.operand ≠ .acc)

/-- The instructions that write a flag (R19's table, R23, R27). -/
def flagWriters : Flag → List Mnemonic
  | .C => [.ADC, .SBC, .CMP, .CPX, .CPY, .ASL, .LSR, .ROL, .ROR, .CLC, .SEC, .PLP, .RTI,
      .SLO, .RLA, .SRE, .RRA, .DCP, .ISB]
  | .Z | .S => [.LDA, .LDX, .LDY, .TAX, .TAY, .TXA, .TYA, .TSX, .PLA, .ADC, .SBC, .AND, .ORA, .EOR, .CMP, .CPX, .CPY,
      .INC, .DEC, .INX, .INY, .DEX, .DEY, .ASL, .LSR, .ROL, .ROR, .LAX, .SLO, .RLA, .SRE, .RRA, .DCP, .ISB,
      .BIT, .PLP, .RTI]
  | .I => [.SEI, .CLI, .BRK, .PLP, .RTI]
  | .D => [.SED, .CLD, .PLP, .RTI]
  | .B => [.PLP, .RTI]
  | .R => [.PLP, .RTI]
  | .V => [.ADC, .SBC, .BIT, .CLV, .PLP, .RTI, .RRA, .ISB]

/-- The opcodes that are undefined whatever `EXT_UNDOC` is (R88). -/
def undefinedOpcodes : List Byte :=
  [0x02, 0x0B, 0x12, 0x22, 0x2B, 0x32, 0x42, 0x4B, 0x52, 0x62, 0x6B, 0x72, 0x8B, 0x92, 0x93, 0x9B, 0x9C, 0x9E, 0x9F,
   0xAB, 0xB2, 0xBB, 0xCB, 0xD2, 0xF2]

/-- The opcodes that are defined only when `EXT_UNDOC` is true (R89). -/
def optionalOpcodes : List Byte :=
  [0x1A, 0x3A, 0x5A, 0x7A, 0xDA, 0xFA, 0x80, 0x82, 0x89, 0xC2, 0xE2, 0x04, 0x44, 0x64, 0x14, 0x34, 0x54, 0x74, 0xD4,
   0xF4, 0x0C, 0x1C, 0x3C, 0x5C, 0x7C, 0xDC, 0xFC, 0xEB]

/-- The bytes from PC on are readable and are `bytes`. -/
def BytesAtPc (s : State) (bytes : List Byte) : Prop :=
  ∀ k b, bytes[k]? = some b → s.read (s.pc + BitVec.ofNat 16 k) = some b

/-- The outcome with the Reserved bit of a next state kept 1 (R307's last line). -/
def keepReserved : Host.Outcome State Fault Refusal → Host.Outcome State Fault Refusal
  | .next t => .next (t.setP (t.p ||| 0x20))
  | .fault f => .fault f
  | .refused r => .refused r

/-- The state a fault leaves (R275). -/
def leftState : Fault → State
  | .decodeError _ _ left | .addressingError _ _ left | .configurationError _ left => left

/-- The result and flags of `ADD(a, m, c)` (R132): `r` the sum mod 256, C its bit 8, V where the operands share a sign
the result has not, Z and S of `r`; the other flags as they were. -/
def AddsTo (a m : Byte) (c : Bool) (p : Byte) (r p' : Byte) : Prop :=
  r = BitVec.ofNat 8 (a.toNat + m.toNat + carryNat c) ∧
  getFlag p' .C = decide (256 ≤ a.toNat + m.toNat + carryNat c) ∧
  getFlag p' .V = (a.getLsbD 7 == m.getLsbD 7 && r.getLsbD 7 != a.getLsbD 7) ∧
  ZSOf p' r ∧ KeepsFlags p p' [.C, .V, .Z, .S]

/-- The result and flags of `SUB(a, m, c)` (R133): `r` is `a - m - (1 - c)` mod 256, C where no borrow occurred, V where
the operands' signs differ and the result's is not that of `a`, Z and S of `r`; the other flags as they were. -/
def SubtractsTo (a m : Byte) (c : Bool) (p : Byte) (r p' : Byte) : Prop :=
  r = BitVec.ofNat 8 (a.toNat + 256 - m.toNat - (1 - carryNat c)) ∧
  getFlag p' .C = decide (m.toNat + (1 - carryNat c) ≤ a.toNat) ∧
  getFlag p' .V = (a.getLsbD 7 != m.getLsbD 7 && r.getLsbD 7 != a.getLsbD 7) ∧
  ZSOf p' r ∧ KeepsFlags p p' [.C, .V, .Z, .S]

/-- The flags of `CMPF(r, m)` (R134): C where `r >= m`, Z and S of the difference; the other flags as they were. -/
def ComparesTo (r m : Byte) (p p' : Byte) : Prop :=
  getFlag p' .C = decide (m.toNat ≤ r.toNat) ∧ ZSOf p' (r - m) ∧ KeepsFlags p p' [.C, .Z, .S]

/-- Every cartridge bank is assigned, as with the NROM selector (R53). -/
def cartridgeAssigned (s : State) : Prop :=
  s.bank[4] ≠ .unassigned ∧ s.bank[5] ≠ .unassigned ∧ s.bank[6] ≠ .unassigned ∧ s.bank[7] ≠ .unassigned

/-- No bank is writable program ROM, as with the NROM selector (R48, R53). -/
def noWritableRom (s : State) : Prop := ∀ addr k, s.bankAt addr ≠ .prgSlice k true

end Sys2Proof.Claims

open Sys2Proof.Claims

/-! ### Encoding and disassembly -/

/-- Decode and encode agree: the bytes of every well-formed instruction, with every operand, decode to it and to
nothing more, whatever follows them. -/
def Obligations.DecodeOfEncodeIsTheInstruction : Prop :=
  ∀ (ext : Bool) (i : Instr) (rest : List Byte),
    i.wellFormed ext = true → decode ext (encode i ++ rest) = .decoded i rest

/-- The other direction: what decodes is an instruction's own bytes, it is well formed, and its length is the length
of the mode the first byte's table entry names, 1 plus the operand bytes of that mode (R82). -/
def Obligations.DecodedBytesAreTheEncoding : Prop :=
  ∀ (ext : Bool) (op : Byte) (bytes rest : List Byte) (i : Instr),
    decode ext (op :: bytes) = .decoded i rest →
      op :: bytes = encode i ++ rest ∧ i.wellFormed ext = true ∧
      (encode i).length = (decodeOp ext op).2.length ∧
      (decodeOp ext op).2.length = 1 + (decodeOp ext op).2.operandBytes

/-- The 25 opcodes of R88 are rejected by name whatever `EXT_UNDOC` is; the 28 of R89 are when it is false, and have a
table entry when it is true; every other opcode byte has a table entry either way. -/
def Obligations.UndefinedOpcodesAreRejected : Prop :=
  ∀ (op : Byte) (rest : List Byte),
    (op ∈ undefinedOpcodes →
      ∀ ext, decode ext (op :: rest) = .rejected (.undefinedOpcode op) ∧ decodeOp ext op = (.UNK, .unknown)) ∧
    (op ∈ optionalOpcodes →
      decode false (op :: rest) = .rejected (.undefinedOpcode op) ∧ decodeOp false op = (.UNK, .unknown) ∧
      (opcodeEntry true op).isSome = true) ∧
    (op ∉ undefinedOpcodes → op ∉ optionalOpcodes → ∀ ext, (opcodeEntry ext op).isSome = true)

/-- A few words written out from the encodings of R86, R87 and R89, one for each shape of operand. -/
def Obligations.WordsDecodeAsTheTableSays : Prop :=
  decode false [0xA9, 0x42] = .decoded (.ldaImm 0x42) [] ∧
  decode false [0x8D, 0x10, 0x00] = .decoded (.staAbs 0x0010) [] ∧
  decode false [0x6C, 0xFF, 0x02] = .decoded (.jmpInd 0x02FF) [] ∧
  decode false [0xB6, 0x10] = .decoded (.ldxZpy 0x10) [] ∧
  decode false [0x0A] = .decoded .aslAcc [] ∧
  decode false [0xD0, 0xF9] = .decoded (.bne 0xF9) [] ∧
  decode false [0xA3, 0x20] = .decoded (.laxIzx 0x20) [] ∧
  decode false [0xFF, 0x34, 0x12] = .decoded (.isbAbx 0x1234) [] ∧
  decode true [0xEB, 0x01] = .decoded (.sbcImmEB 0x01) []

/-- The decoder the machine dispatches from and the disassembler are one table (R98): the instruction the bytes decode
to has the mnemonic the text begins with and the mode the text is formatted by, the length is its own, and the bytes
beyond that length do not matter (R96). An opcode that is not defined prints `UNK` with length 1. -/
def Obligations.DisassemblerAndDecoderAgree : Prop :=
  ∀ (ext : Bool) (b0 b1 b2 c1 c2 : Byte),
    (∀ i rest, decode ext [b0, b1, b2] = .decoded i rest →
      (disasmChars ext b0 b1 b2).2 = i.length ∧
      (disasmChars ext b0 b1 b2).1 = mnemonicChars i.mnemonic ++ operandChars i.operand.mode b1 b2 ∧
      (i.length ≤ 2 → disasmChars ext b0 b1 c2 = disasmChars ext b0 b1 b2) ∧
      (i.length = 1 → disasmChars ext b0 c1 c2 = disasmChars ext b0 b1 b2)) ∧
    (∀ r, decode ext [b0, b1, b2] = .rejected r →
      disasmChars ext b0 b1 b2 = (['U', 'N', 'K'], 1))


/-! ### The step -/

/-- A step runs the decoded instruction: where the bytes at PC decode to `i`, the step is `exec i` with PC moved past
those bytes, and the Reserved bit kept 1 afterwards (R307). -/
def Obligations.StepRunsTheDecodedInstruction : Prop :=
  ∀ (s : State) (i : Instr) (bytes : List Byte),
    s.fault = none → decode s.extUndoc bytes = .decoded i [] → BytesAtPc s bytes →
      step s = keepReserved (exec i (s.setPc (s.pc + BitVec.ofNat 16 bytes.length)))

/-- The faults of a fetch, in their order (R280): an unreadable opcode byte is an AddressingError at PC; an opcode that
decodes to UNKNOWN is a DecodeError with the opcode and its address; an unreadable operand byte is an AddressingError
at that byte. The operand byte of an optional immediate NOP is not read (R258), so it raises nothing. -/
def Obligations.FetchFaultsComeInOrder : Prop :=
  ∀ (s : State), s.fault = none →
    (s.read s.pc = none → ∃ left, step s = .fault (.addressingError s.pc .read left)) ∧
    (∀ op, s.read s.pc = some op →
      ((decodeOp s.extUndoc op).2 = .unknown → ∃ left, step s = .fault (.decodeError op s.pc left)) ∧
      (1 ≤ (decodeOp s.extUndoc op).2.operandBytes → decodeOp s.extUndoc op ≠ (.NOP, .immediate) →
        s.read (s.pc + 1) = none → ∃ left, step s = .fault (.addressingError (s.pc + 1) .read left)) ∧
      ((decodeOp s.extUndoc op).2.operandBytes = 2 → (s.read (s.pc + 1)).isSome = true →
        s.read (s.pc + 2) = none → ∃ left, step s = .fault (.addressingError (s.pc + 2) .read left)) ∧
      (decodeOp s.extUndoc op = (.NOP, .immediate) →
        step s = .next ((s.setPc (s.pc + 2)).setP (s.p ||| 0x20))))

/-- A fault is terminal: stepping the state a fault left gives the same fault again and changes nothing (R274), and a
machine whose latch is set does nothing else. -/
def Obligations.FaultedMachineRepeatsItsFault : Prop :=
  (∀ (s : State) (f : Fault), step s = .fault f → step (leftState f) = .fault f) ∧
  (∀ (s : State) (r : FaultRecord), s.fault = some r → ∃ f, step s = .fault f ∧ leftState f = s)

/-- The outcomes of a step of a machine that has not faulted: the next state, a DecodeError with the opcode's address,
or an AddressingError; never a ConfigurationError and never a refusal (R9, R270). -/
def Obligations.StepEndsInNextDecodeErrorOrAddressingError : Prop :=
  ∀ (s : State), s.fault = none →
    (∃ t, step s = .next t ∧ t.fault = none) ∨
    (∃ op left, step s = .fault (.decodeError op s.pc left)) ∨
    (∃ addr kind left, step s = .fault (.addressingError addr kind left))

/-- With a legal bank table and the four cartridge banks assigned, as NROM leaves them, the only addresses a step can
fault on are those of banks 1 and 2 (R49, R272): no stack access, vector read or ROM access faults. -/
def Obligations.OnlyBanks1And2FaultUnderACartridge : Prop :=
  ∀ (s : State) (addr : Word) (kind : AccessKind) (left : State),
    s.fault = none → s.legalBanks = true → cartridgeAssigned s →
      step s = .fault (.addressingError addr kind left) → 0x2000 ≤ addr.toNat ∧ addr.toNat < 0x6000

/-! ### Invariants -/

/-- The state after reset meets the invariant: canonical memories inside their sizes, a legal bank table, Reserved 1. Its
cartridge and its memory contents are the model's choice (notes/assumptions/1.md and 2.md). -/
def Obligations.ResetStateIsLegal : Prop := State.reset.Inv

/-- Every machine an initialisation builds meets the invariant: from a descriptor that meets R57, any RAM and save-RAM
contents of the right size, any override, and no selector or one that meets the contract of R52. -/
def Obligations.InitialisedMachineIsLegal : Prop :=
  ∀ (d : RomDescriptor) (selector : Option Selector) (ramInit sramInit : Memory) (pcOverride : Option Word)
    (ext : Bool) (s : State),
    d.wf = true → (∀ sel, selector = some sel → sel.InRange) →
    ramInit.wf = true → ramInit.within 2048 = true → sramInit.wf = true → sramInit.within 8192 = true →
      init d selector ramInit sramInit pcOverride ext = .machine s → s.Inv

/-- Every step keeps the invariant: the three memories stay canonical and inside their sizes, the bank table stays
legal and the Reserved bit stays 1. -/
def Obligations.EveryStepKeepsTheStateLegal : Prop :=
  ∀ (s t : State), s.Inv → step s = .next t → t.Inv

/-- No step writes the bank table or a launch parameter (R31: "Written only by BusInit"), and a step that completes
leaves no fault latched (R34). -/
def Obligations.NoStepWritesTheBankTable : Prop :=
  ∀ (s t : State), step s = .next t →
    t.bank = s.bank ∧ t.prgUnits = s.prgUnits ∧ t.extUndoc = s.extUndoc ∧ t.fault = none

/-- Program ROM is constant: where no bank is a writable slice, as under NROM, no step changes a byte of the image,
stores into it included (R30, R48). -/
def Obligations.ProgramRomIsConstantUnderNrom : Prop :=
  ∀ (s t : State), noWritableRom s → step s = .next t → t.prg = s.prg ∧ noWritableRom t

/-- The Reserved bit (R20): every initialisation sets it, it is 1 after every step from every state, no instruction
clears it, PLP and RTI set it whatever they pull, and the copy PHP or BRK pushes has bit 5 set whatever the register
holds. -/
def Obligations.ReservedBitIsAlwaysOne : Prop :=
  (∀ (s t : State), step s = .next t → t.flag .R = true) ∧
  (∀ (i : Instr) (s t : State), s.flag .R = true → exec i s = .next t → t.flag .R = true) ∧
  (∀ (i : Instr) (s t : State), i.mnemonic = .PLP ∨ i.mnemonic = .RTI → exec i s = .next t → t.flag .R = true) ∧
  (∀ (s t : State), s.bank[0] = .sysRam →
    (exec .php s = .next t → (t.ram.read (256 + s.sp.toNat)).getLsbD 5 = true) ∧
    (exec .brk s = .next t → (t.ram.read (256 + (s.sp - 2).toNat)).getLsbD 5 = true)) ∧
  (∀ (d : RomDescriptor) (selector : Option Selector) (ramInit sramInit : Memory) (pcOverride : Option Word)
    (ext : Bool) (s : State), init d selector ramInit sramInit pcOverride ext = .machine s → s.flag .R = true)

/-- Once Break is 0 it is 0 for the rest of the run, and only PLP and RTI change it, to 0 (R21). -/
def Obligations.BreakBitNeverComesBack : Prop :=
  (∀ (s t : State), s.flag .B = false → step s = .next t → t.flag .B = false) ∧
  (∀ (i : Instr) (s t : State), exec i s = .next t →
    ((i.mnemonic = .PLP ∨ i.mnemonic = .RTI) → t.flag .B = false) ∧
    (i.mnemonic ≠ .PLP → i.mnemonic ≠ .RTI → t.flag .B = s.flag .B))

/-! ### Memory -/

/-- `MemRead` routes by bank (R43) with bank `addr >> 13` and offset `addr & 0x1FFF` (R41): a read of an assigned bank
answers the byte and changes nothing, a read of an unassigned bank raises AddressingError. -/
def Obligations.ReadsAreRoutedByBank : Prop :=
  ∀ (s : State) (addr : Word),
    (s.bank[addr.toNat / 8192]? = some .sysRam →
      memRead addr s = .ok (s.ram.read (addr.toNat % 8192 % 2048)) s) ∧
    (s.bank[addr.toNat / 8192]? = some .saveRam → memRead addr s = .ok (s.sram.read (addr.toNat % 8192)) s) ∧
    (∀ k w, s.bank[addr.toNat / 8192]? = some (.prgSlice k w) →
      memRead addr s = .ok (s.prg.read (k * 8192 + addr.toNat % 8192)) s) ∧
    (s.bank[addr.toNat / 8192]? = some .unassigned → memRead addr s = .error (.addressingError addr .read) s)

/-- `MemWrite` routes by bank and stores (R44): the byte lands in system RAM, save RAM or a writable slice, a store to
a slice that is not writable changes nothing (R48), and a store to an unassigned bank raises AddressingError. -/
def Obligations.WritesAreRoutedByBank : Prop :=
  ∀ (s : State) (addr : Word) (v : Byte),
    (s.bank[addr.toNat / 8192]? = some .sysRam →
      memWrite addr v s = .ok () (s.setRam (s.ram.write (addr.toNat % 8192 % 2048) v))) ∧
    (s.bank[addr.toNat / 8192]? = some .saveRam →
      memWrite addr v s = .ok () (s.setSram (s.sram.write (addr.toNat % 8192) v))) ∧
    (∀ k, s.bank[addr.toNat / 8192]? = some (.prgSlice k true) →
      memWrite addr v s = .ok () (s.setPrg (s.prg.write (k * 8192 + addr.toNat % 8192) v))) ∧
    (∀ k, s.bank[addr.toNat / 8192]? = some (.prgSlice k false) → memWrite addr v s = .ok () s) ∧
    (s.bank[addr.toNat / 8192]? = some .unassigned → memWrite addr v s = .error (.addressingError addr .write) s)

/-- Bank 0's mirror (R45): the four addresses of a RAM byte name that byte for reads and writes alike, so a store at any
of them is read back at all four, and a store at one RAM byte leaves every other one. -/
def Obligations.RamIsMirroredFourTimes : Prop :=
  ∀ (s : State) (i j a b : Nat) (v : Byte),
    s.bank[0] = .sysRam → i < 4 → j < 4 → a < 0x0800 → b < 0x0800 →
      s.read (BitVec.ofNat 16 (a + i * 0x0800)) = some (s.ram.read a) ∧
      ∃ t, s.write (BitVec.ofNat 16 (a + i * 0x0800)) v = some t ∧ t = s.setRam (s.ram.write a v) ∧
        t.read (BitVec.ofNat 16 (a + j * 0x0800)) = some v ∧
        (b ≠ a → t.read (BitVec.ofNat 16 (b + j * 0x0800)) = s.read (BitVec.ofNat 16 (b + j * 0x0800)))

/-- Banks 1 and 2 are never assigned (R49): no initialisation and no step assigns them, and while they are not, every
read or write of 0x2000 to 0x5FFF raises AddressingError, an opcode fetch there included. -/
def Obligations.Banks1And2AlwaysFault : Prop :=
  (∀ (d : RomDescriptor) (selector : Option Selector) (ramInit sramInit : Memory) (pcOverride : Option Word)
    (ext : Bool) (s : State), init d selector ramInit sramInit pcOverride ext = .machine s →
      s.bank[1] = .unassigned ∧ s.bank[2] = .unassigned) ∧
  (∀ (s t : State), step s = .next t → t.bank = s.bank) ∧
  ∀ (s : State) (addr : Word) (v : Byte), s.bank[1] = .unassigned → s.bank[2] = .unassigned →
    0x2000 ≤ addr.toNat → addr.toNat < 0x6000 →
      memRead addr s = .error (.addressingError addr .read) s ∧
      memWrite addr v s = .error (.addressingError addr .write) s ∧
      (s.fault = none → s.pc = addr → ∃ left, step s = .fault (.addressingError addr .read left))

/-! ### Initialisation -/

/-- The NROM windows (R53): one unit is mapped twice, two units once in order, no slot writable. -/
def Obligations.NromFillsTheCartridgeWindow : Prop :=
  Selector.InRange nrom ∧
  ∀ (d : RomDescriptor) (ramInit sramInit : Memory) (pcOverride : Option Word) (ext : Bool) (s : State),
    init d (some nrom) ramInit sramInit pcOverride ext = .machine s →
      (d.prgUnits = 1 →
        s.bank[4] = .prgSlice 0 false ∧ s.bank[5] = .prgSlice 1 false ∧
        s.bank[6] = .prgSlice 0 false ∧ s.bank[7] = .prgSlice 1 false ∧
        ∀ addr : Word, 0x8000 ≤ addr.toNat → s.read addr = some (d.prg.read ((addr.toNat - 0x8000) % 16384))) ∧
      (d.prgUnits = 2 →
        s.bank[4] = .prgSlice 0 false ∧ s.bank[5] = .prgSlice 1 false ∧
        s.bank[6] = .prgSlice 2 false ∧ s.bank[7] = .prgSlice 3 false ∧
        ∀ addr : Word, 0x8000 ≤ addr.toNat → s.read addr = some (d.prg.read (addr.toNat - 0x8000)))

/-- What a successful initialisation leaves (R36, R51, R302, R303): the register values, RAM and save RAM as given, the
image unchanged, banks 0 to 3, no fault, and PC the override or else the reset vector's word. The vector's address
0xFFFC is the spec's [from general knowledge] (R68). -/
def Obligations.InitialisationSetsTheMachine : Prop :=
  ∀ (d : RomDescriptor) (selector : Option Selector) (ramInit sramInit : Memory) (pcOverride : Option Word)
    (ext : Bool) (s : State),
    init d selector ramInit sramInit pcOverride ext = .machine s →
      (s.a = 0x00 ∧ s.x = 0x00 ∧ s.y = 0x00 ∧ s.sp = 0xFD ∧ s.p = 0x34) ∧
      (s.ram = ramInit ∧ s.sram = sramInit ∧ s.prg = d.prg ∧ s.prgUnits = d.prgUnits) ∧
      (s.bank[0] = .sysRam ∧ s.bank[1] = .unassigned ∧ s.bank[2] = .unassigned ∧ s.bank[3] = .saveRam) ∧
      (s.extUndoc = ext ∧ s.fault = none) ∧
      (∀ v, pcOverride = some v → s.pc = v) ∧
      (pcOverride = none → ∃ lo hi, s.read 0xFFFC = some lo ∧ s.read 0xFFFD = some hi ∧ s.pc = wordOf hi lo)

/-- When an initialisation fails and when it succeeds (R50, R54, R55, R303): NROM accepts one or two units and refuses
every other count; only mapper number 0 has a selector; without a selector the vector read faults unless PC is
overridden, and then banks 4 to 7 stay unassigned. -/
def Obligations.InitialisationFailsExactlyAsStated : Prop :=
  ∀ (d : RomDescriptor) (ramInit sramInit : Memory) (pcOverride : Option Word) (ext : Bool) (v : Word),
    (d.prgUnits ≠ 1 → d.prgUnits ≠ 2 →
      init d (some nrom) ramInit sramInit pcOverride ext =
        .failed (.configurationError (.unsupportedPrgUnits d.prgUnits))) ∧
    (d.mapperNumber ≠ 0 →
      launch d ramInit sramInit pcOverride ext =
        .failed (.configurationError (.noSelectorForMapper d.mapperNumber))) ∧
    (d.mapperNumber = 0 → (d.prgUnits = 1 ∨ d.prgUnits = 2) →
      ∃ s, launch d ramInit sramInit pcOverride ext = .machine s) ∧
    init d none ramInit sramInit none ext = .failed (.addressingError 0xFFFC .read) ∧
    (∃ s, init d none ramInit sramInit (some v) ext = .machine s ∧
      s.bank[4] = .unassigned ∧ s.bank[5] = .unassigned ∧ s.bank[6] = .unassigned ∧ s.bank[7] = .unassigned)

/-! ### Addressing modes -/

/-- The modes that read no pointer (R113 to R117, R121): the effective address, or none for implied and accumulator.
PC is already past the operand, so an immediate operand's address is PC - 1. The 16-bit wraps are the spec's D11. -/
def Obligations.DirectModesComputeTheirAddress : Prop :=
  ∀ (s : State) (b : Byte) (a : Word),
    resolve .imp s = .ok none s ∧ resolve .acc s = .ok none s ∧
    (∃ ea, resolve (.imm b) s = .ok (some ea) s ∧ ea + 1 = s.pc) ∧
    (∃ ea, resolve (.zp b) s = .ok (some ea) s ∧ ea.toNat = b.toNat) ∧
    (∃ ea, resolve (.zpx b) s = .ok (some ea) s ∧ ea.toNat = (b.toNat + s.x.toNat) % 256) ∧
    (∃ ea, resolve (.zpy b) s = .ok (some ea) s ∧ ea.toNat = (b.toNat + s.y.toNat) % 256) ∧
    (∃ ea, resolve (.abs a) s = .ok (some ea) s ∧ ea = a) ∧
    (∃ ea, resolve (.abx a) s = .ok (some ea) s ∧ ea.toNat = (a.toNat + s.x.toNat) % 65536) ∧
    (∃ ea, resolve (.aby a) s = .ok (some ea) s ∧ ea.toNat = (a.toNat + s.y.toNat) % 65536) ∧
    (∃ ea, resolve (.rel b) s = .ok (some ea) s ∧
      ea.toNat = (s.pc.toNat + (if b.toNat < 128 then b.toNat else b.toNat + 0xFF00)) % 65536)

/-- The modes whose address is the pointer's word (R118, R119), with their wraps on the pointer's second byte: the
indirect JMP's stays in its page, the pre-indexed one's stays in the zero page. -/
def Obligations.IndirectModesReadTheirPointer : Prop :=
  ∀ (s : State) (lo hi : Byte),
    (∀ p : Word, s.read p = some lo → s.read (if p.toNat % 256 = 255 then p - 255 else p + 1) = some hi →
      ∃ ea, resolve (.ind p) s = .ok (some ea) s ∧ ea.toNat = hi.toNat * 256 + lo.toNat) ∧
    (∀ b : Byte, s.read (BitVec.ofNat 16 ((b.toNat + s.x.toNat) % 256)) = some lo →
      s.read (BitVec.ofNat 16 ((b.toNat + s.x.toNat + 1) % 256)) = some hi →
      ∃ ea, resolve (.izx b) s = .ok (some ea) s ∧ ea.toNat = hi.toNat * 256 + lo.toNat)

/-- The post-indexed mode (R120): the pointer's second byte stays in the zero page and Y is added to the pointer's
value, not to its address. That the sum wraps mod 65536 is the spec's decision D11. -/
def Obligations.PostIndexedModeAddsYToThePointer : Prop :=
  ∀ (s : State) (b lo hi : Byte), s.read (BitVec.ofNat 16 b.toNat) = some lo →
    s.read (BitVec.ofNat 16 ((b.toNat + 1) % 256)) = some hi →
      ∃ ea, resolve (.izy b) s = .ok (some ea) s ∧ ea.toNat = (hi.toNat * 256 + lo.toNat + s.y.toNat) % 65536

/-- Reading an operand (R114, R155): an immediate operand is the byte the instruction carries; in every other mode with
an address it is the byte read at the address the mode computes. Nothing changes. -/
def Obligations.OperandsReadTheByteAtTheirAddress : Prop :=
  ∀ (o : Operand) (s : State) (b v : Byte) (ea : Word),
    loadOperand (.imm b) s = .ok b s ∧
    (o.mode ≠ .immediate → resolve o s = .ok (some ea) s → s.read ea = some v → loadOperand o s = .ok v s)

/-- What stops an instruction once it is fetched (R112, R272): an unreadable pointer byte; an unreadable operand byte
of an instruction that reads one; an unassigned target of a store. -/
def Obligations.UnassignedOperandsFault : Prop :=
  ∀ (i : Instr) (s : State),
    (∀ a, resolve i.operand s = .error (.addressingError a .read) s →
      ∃ left, exec i s = .fault (.addressingError a .read left)) ∧
    (∀ ea, resolve i.operand s = .ok (some ea) s → s.read ea = none →
      ((i.mnemonic ∈ readers ∧ i.operand.mode ≠ .immediate) ∨ i.mnemonic ∈ modifiers ∨ i.mnemonic ∈ shifts →
        ∃ left, exec i s = .fault (.addressingError ea .read left)) ∧
      (i.mnemonic ∈ stores → ∃ left, exec i s = .fault (.addressingError ea .write left)))

/-! ### The ALU -/

/-- V of an addition or subtraction is signed overflow: it is set exactly when the exact signed result lies outside
-128..127 (R147's closing claim, which the spec marks [derived]). -/
def Obligations.OverflowIsSignedOverflow : Prop :=
  ∀ (a m : Byte) (c : Bool),
    ((addF a m c).v = true ↔
      (a.toInt + m.toInt + carryNat c < -128 ∨ 127 < a.toInt + m.toInt + carryNat c)) ∧
    ((subF a m c).v = true ↔
      (a.toInt - m.toInt - (1 - carryNat c) < -128 ∨ 127 < a.toInt - m.toInt - (1 - carryNat c)))

/-- `SUB(a, m, c)` returns the same result and flags as `ADD(a, m XOR 0xFF, c)` (R133's closing claim, which the spec
marks [derived]). -/
def Obligations.SubtractionIsAdditionOfTheComplement : Prop :=
  ∀ (a m : Byte) (c : Bool), subF a m c = addF a (m ^^^ 0xFF) c

/-- The two packings of the status byte (R148), flag by flag. -/
def Obligations.StatusImagesForceBreakAndReserved : Prop :=
  ∀ (p : Byte),
    (getFlag (pushImage p) .B = true ∧ getFlag (pushImage p) .R = true ∧ KeepsFlags p (pushImage p) [.B, .R]) ∧
    (getFlag (pullImage p) .B = false ∧ getFlag (pullImage p) .R = true ∧ KeepsFlags p (pullImage p) [.B, .R]) ∧
    pullImage (pushImage p) = (p ||| 0x20) &&& 0xEF

/-! ### Loads, stores and transfers -/

/-- LDA, LDX, LDY and LAX (R155 to R157, R250): whenever the operand byte can be read the instruction completes, the
byte is in the destination, Z and S describe it, and nothing else changes. -/
def Obligations.LoadsCompleteAndSetZS : Prop :=
  ∀ (i : Instr) (s : State) (v : Byte), loadOperand i.operand s = .ok v s →
    ∃ p', ZSOf p' v ∧ KeepsFlags s.p p' [.Z, .S] ∧
      (i.mnemonic = .LDA → exec i s = .next ((s.setA v).setP p')) ∧
      (i.mnemonic = .LDX → exec i s = .next ((s.setX v).setP p')) ∧
      (i.mnemonic = .LDY → exec i s = .next ((s.setY v).setP p')) ∧
      (i.mnemonic = .LAX → exec i s = .next (((s.setA v).setX v).setP p'))

/-- STA, STX, STY and SAX (R158 to R160, R251): whenever the target is in an assigned bank the instruction completes,
and all it does is the arbiter's store of its byte at the effective address; no register and no flag changes. -/
def Obligations.StoresCompleteAndWriteOneByte : Prop :=
  ∀ (i : Instr) (s t : State) (ea : Word) (v : Byte),
    storedByte s i.mnemonic = some v → resolve i.operand s = .ok (some ea) s → s.write ea v = some t →
      exec i s = .next t ∧ t.p = s.p ∧ t.a = s.a ∧ t.x = s.x ∧ t.y = s.y ∧ t.sp = s.sp ∧ t.pc = s.pc

/-- The transfers and the register increments and decrements (R161 to R166, R186 to R189) always complete: the
destination takes the byte, Z and S describe it, nothing else changes; TXS writes SP and no flag. -/
def Obligations.RegisterOperationsComplete : Prop :=
  ∀ (i : Instr) (s : State),
    (∀ v t, registerResult s i.mnemonic = some (v, t) →
      ∃ p', exec i s = .next (t.setP p') ∧ ZSOf p' v ∧ KeepsFlags s.p p' [.Z, .S]) ∧
    (i.mnemonic = .TXS → exec i s = .next (s.setSp s.x))

/-! ### Arithmetic and logic -/

/-- ADC and SBC (R175, R176, R259; R132, R133): whenever the operand byte can be read the instruction completes with the
sum or difference in A and C, V, Z, S as the ALU rules give them, whatever the Decimal flag holds; I, D, B and all else
unchanged. -/
def Obligations.AddAndSubtractComplete : Prop :=
  ∀ (i : Instr) (s : State) (m : Byte), loadOperand i.operand s = .ok m s →
    (i.mnemonic = .ADC → ∃ r p', AddsTo s.a m (s.flag .C) s.p r p' ∧ exec i s = .next ((s.setA r).setP p')) ∧
    (i.mnemonic = .SBC → ∃ r p', SubtractsTo s.a m (s.flag .C) s.p r p' ∧ exec i s = .next ((s.setA r).setP p'))

/-- AND, ORA and EOR (R177 to R179): A takes the bitwise result, Z and S describe it, nothing else changes. -/
def Obligations.LogicInstructionsComplete : Prop :=
  ∀ (i : Instr) (s : State) (m r : Byte),
    logicByte s.a m i.mnemonic = some r → loadOperand i.operand s = .ok m s →
      ∃ p', exec i s = .next ((s.setA r).setP p') ∧ ZSOf p' r ∧ KeepsFlags s.p p' [.Z, .S]

/-- CMP, CPX and CPY (R180 to R182, R134): C, Z and S are the compare's, V and every register are unchanged, and the
incoming Carry is not used. -/
def Obligations.ComparesComplete : Prop :=
  ∀ (i : Instr) (s : State) (r m : Byte),
    comparedRegister s i.mnemonic = some r → loadOperand i.operand s = .ok m s →
      ∃ p', exec i s = .next (s.setP p') ∧ ComparesTo r m s.p p'

/-- BIT (R183, R144): Z from `A AND m`, V and S from bits 6 and 7 of the memory byte; no register and no other flag
changes, C among them. -/
def Obligations.BitTestCompletes : Prop :=
  ∀ (i : Instr) (s : State) (m : Byte), i.mnemonic = .BIT → loadOperand i.operand s = .ok m s →
    ∃ p', exec i s = .next (s.setP p') ∧ getFlag p' .Z = decide ((s.a &&& m).toNat = 0) ∧
      getFlag p' .V = m.getLsbD 6 ∧ getFlag p' .S = m.getLsbD 7 ∧ KeepsFlags s.p p' [.Z, .V, .S]

/-- INC and DEC (R184, R185): whenever the byte at the effective address can be read the instruction completes, the
byte plus or minus 1 mod 256 is stored there (and lost on ROM), Z and S describe it, nothing else changes. -/
def Obligations.IncrementAndDecrementMemoryComplete : Prop :=
  ∀ (i : Instr) (s : State) (ea : Word) (m r : Byte),
    (i.mnemonic = .INC ∧ r = BitVec.ofNat 8 (m.toNat + 1)) ∨ (i.mnemonic = .DEC ∧ r = BitVec.ofNat 8 (m.toNat + 255)) →
    resolve i.operand s = .ok (some ea) s → s.read ea = some m →
      ∃ t p', s.write ea r = some t ∧ exec i s = .next (t.setP p') ∧ ZSOf p' r ∧ KeepsFlags s.p p' [.Z, .S]

/-! ### Shifts and rotates -/

/-- ASL, LSR, ROL and ROR (R200 to R204): the accumulator form always completes and changes A; a memory form completes
whenever its byte can be read, stores the result there and leaves A. The bit shifted out goes to C, the old Carry into
the vacated bit of a rotate, Z and S describe the result, nothing else changes. -/
def Obligations.ShiftsAndRotatesComplete : Prop :=
  ∀ (i : Instr) (s : State) (v r : Byte) (c : Bool), shifted v (s.flag .C) i.mnemonic = some (r, c) →
    ∃ p', getFlag p' .C = c ∧ ZSOf p' r ∧ KeepsFlags s.p p' [.C, .Z, .S] ∧
      (i.operand = .acc → s.a = v → exec i s = .next ((s.setA r).setP p')) ∧
      (∀ ea, resolve i.operand s = .ok (some ea) s → s.read ea = some v →
        ∃ t, s.write ea r = some t ∧ exec i s = .next (t.setP p'))

/-! ### Control flow -/

/-- The conditional branches (R210 to R218): always complete; PC is the target when the flag has the branch's value and
stays at the next instruction otherwise; nothing else changes. -/
def Obligations.BranchesComplete : Prop :=
  ∀ (i : Instr) (s : State) (f : Flag) (v : Bool), branchTest i.mnemonic = some (f, v) →
    ∃ off, i.operand = .rel off ∧
      exec i s = .next (s.setPc (if s.flag f = v then s.pc + off.signExtend 16 else s.pc))

/-- JMP (R219): the absolute form goes to its operand word, whose byte it does not read; the indirect form to the word
its pointer names, the pointer's high byte coming from the same page (R118), or faults where the pointer lies in an
unassigned bank. No flag and no other register changes. -/
def Obligations.JumpsComplete : Prop :=
  ∀ (s : State) (a : Word),
    exec (.jmpAbs a) s = .next (s.setPc a) ∧
    (∀ lo hi, s.read a = some lo → s.read (if a.toNat % 256 = 255 then a - 255 else a + 1) = some hi →
      exec (.jmpInd a) s = .next (s.setPc (wordOf hi lo))) ∧
    (s.read a = none → ∃ left, exec (.jmpInd a) s = .fault (.addressingError a .read left))

/-- JSR (R220): with bank 0 system RAM, as in every machine, it completes: the return address minus 1 is pushed high
byte first, SP goes down by 2 mod 256, PC is the operand word; nothing else changes. -/
def Obligations.JumpToSubroutineCompletes : Prop :=
  ∀ (s : State) (a : Word), s.bank[0] = .sysRam →
    exec (.jsr a) s = .next ((((s.setRam
      ((s.ram.write (256 + s.sp.toNat) (hiByte (s.pc - 1))).write (256 + (s.sp - 1).toNat) (loByte (s.pc - 1))))).setSp
        (s.sp - 2)).setPc a)

/-- RTS (R221): with bank 0 system RAM it completes: two stack bytes, low then high, make a word; PC is that word plus
1 mod 65536 (D11), SP goes up by 2 mod 256; nothing else changes. -/
def Obligations.ReturnFromSubroutineCompletes : Prop :=
  ∀ (s : State), s.bank[0] = .sysRam →
    exec .rts s = .next ((s.setSp (s.sp + 2)).setPc
      (wordOf (s.ram.read (256 + (s.sp + 2).toNat)) (s.ram.read (256 + (s.sp + 1).toNat)) + 1))

/-- BRK (R222, R278): with a legal bank table and the vector readable it completes by entering through 0xFFFE: the
opcode's address plus 2 (PC here is the opcode's address plus 1) high byte first, then the status byte with Break and
Reserved set, are pushed; I is set; PC is the vector's word; Break in the register and all else unchanged. With bank 7
unassigned it faults on reading 0xFFFE. The sequence beyond the status byte is the spec's decision D14. -/
def Obligations.BreakEntersThroughTheVector : Prop :=
  ∀ (s : State), s.legalBanks = true →
    (∀ lo hi, s.read 0xFFFE = some lo → s.read 0xFFFF = some hi →
      exec .brk s = .next ((((s.setRam
        (((s.ram.write (256 + s.sp.toNat) (hiByte (s.pc + 1))).write (256 + (s.sp - 1).toNat) (loByte (s.pc + 1))).write
          (256 + (s.sp - 2).toNat) (s.p ||| 0x30))).setSp (s.sp - 3)).setP (s.p ||| 0x04)).setPc (wordOf hi lo))) ∧
    (s.bank[7] = .unassigned → ∃ left, exec .brk s = .fault (.addressingError 0xFFFE .read left))

/-- RTI (R223, R279): with bank 0 system RAM it completes: the status byte is pulled with Reserved 1 and Break 0, then
PC low and high, with no increment; SP goes up by 3 mod 256; nothing else changes. That PC follows the status is the
spec's [from general knowledge]. -/
def Obligations.ReturnFromInterruptCompletes : Prop :=
  ∀ (s : State), s.bank[0] = .sysRam →
    exec .rti s = .next (((s.setSp (s.sp + 3)).setP ((s.ram.read (256 + (s.sp + 1).toNat) ||| 0x20) &&& 0xEF)).setPc
      (wordOf (s.ram.read (256 + (s.sp + 3).toNat)) (s.ram.read (256 + (s.sp + 2).toNat))))

/-! ### Stack, flags, NOP -/

/-- The stack (R17): SP addresses 0x0100 to 0x01FF; a push stores at 0x0100 + SP and then decrements SP, a pop
increments SP and then loads, both mod 256 and without overflow detection, so SP 0x00 and 0xFF wrap; only the stack
instructions and TXS write SP; and every initialisation leaves SP at 0xFD. -/
def Obligations.PushAndPopUseTheStackPage : Prop :=
  (∀ (s : State) (v : Byte), s.bank[0] = .sysRam →
    push v s = .ok () ((s.setRam (s.ram.write (256 + s.sp.toNat) v)).setSp (BitVec.ofNat 8 (s.sp.toNat + 255))) ∧
    pop s = .ok (s.ram.read (256 + (s.sp.toNat + 1) % 256)) (s.setSp (BitVec.ofNat 8 (s.sp.toNat + 1))) ∧
    (stackAddr s.sp).toNat = 256 + s.sp.toNat) ∧
  (∀ (i : Instr) (s t : State), exec i s = .next t →
    i.mnemonic ∉ ([.JSR, .RTS, .BRK, .RTI, .PHA, .PLA, .PHP, .PLP, .TXS] : List Mnemonic) → t.sp = s.sp) ∧
  (∀ (d : RomDescriptor) (selector : Option Selector) (ramInit sramInit : Memory) (pcOverride : Option Word)
    (ext : Bool) (s : State), init d selector ramInit sramInit pcOverride ext = .machine s → s.sp = 0xFD)

/-- PHA and PHP (R230, R232): with bank 0 system RAM they complete: A, or the status byte with Break and Reserved set,
is stored at 0x0100 + SP and SP goes down by 1 mod 256; no register but SP and no flag changes. -/
def Obligations.PushesComplete : Prop :=
  ∀ (s : State), s.bank[0] = .sysRam →
    exec .pha s = .next ((s.setRam (s.ram.write (256 + s.sp.toNat) s.a)).setSp (s.sp - 1)) ∧
    exec .php s = .next ((s.setRam (s.ram.write (256 + s.sp.toNat) (s.p ||| 0x30))).setSp (s.sp - 1))

/-- PLA and PLP (R231, R233): with bank 0 system RAM they complete: SP goes up by 1 mod 256 and the byte at 0x0100 + SP
goes to A, with Z and S describing it, or to the status byte, with Reserved 1 and Break 0. That PLA writes Z and S is
the spec's [from general knowledge]. -/
def Obligations.PullsComplete : Prop :=
  ∀ (s : State) (v : Byte), s.bank[0] = .sysRam → s.ram.read (256 + (s.sp + 1).toNat) = v →
    (∃ p', exec .pla s = .next (((s.setSp (s.sp + 1)).setA v).setP p') ∧ ZSOf p' v ∧ KeepsFlags s.p p' [.Z, .S]) ∧
    exec .plp s = .next ((s.setSp (s.sp + 1)).setP ((v ||| 0x20) &&& 0xEF))

/-- CLC, SEC, CLI, SEI, CLD, SED and CLV (R234 to R240): always complete; the one flag takes its value, nothing else
changes. -/
def Obligations.FlagInstructionsComplete : Prop :=
  ∀ (i : Instr) (s : State) (f : Flag) (v : Bool), flagWrite i.mnemonic = some (f, v) →
    ∃ p', exec i s = .next (s.setP p') ∧ getFlag p' f = v ∧ KeepsFlags s.p p' [f]

/-- NOP, the documented opcode and the 27 optional forms (R241, R258), always completes and changes nothing: no form
reads at its operand's address, so `NOP $2000` does not fault. -/
def Obligations.NopChangesNothing : Prop :=
  ∀ (i : Instr) (s : State), i.mnemonic = .NOP → exec i s = .next s

/-! ### Undocumented read-modify-write instructions -/

/-- SLO, RLA, SRE, RRA, DCP and ISB (R252 to R257): whenever the byte at the effective address can be read the
instruction completes; the shifted, rotated, incremented or decremented byte is stored there, and the accumulator
operation uses that byte, not one read back; the flags are the second half's, with C the shift's where the second half
is a logic function. -/
def Obligations.ReadModifyWriteArithmeticCompletes : Prop :=
  ∀ (i : Instr) (s : State) (ea : Word) (m : Byte),
    resolve i.operand s = .ok (some ea) s → s.read ea = some m →
    (∀ shift logic, (i.mnemonic, shift, logic) ∈
        ([(.SLO, .ASL, .ORA), (.RLA, .ROL, .AND), (.SRE, .LSR, .EOR)] : List (Mnemonic × Mnemonic × Mnemonic)) →
      ∀ b c r, shifted m (s.flag .C) shift = some (b, c) → logicByte s.a b logic = some r →
        ∃ t p', s.write ea b = some t ∧ exec i s = .next ((t.setA r).setP p') ∧
          getFlag p' .C = c ∧ ZSOf p' r ∧ KeepsFlags s.p p' [.C, .Z, .S]) ∧
    (i.mnemonic = .RRA → ∀ b c, shifted m (s.flag .C) .ROR = some (b, c) →
      ∃ t r p', s.write ea b = some t ∧ exec i s = .next ((t.setA r).setP p') ∧ AddsTo s.a b c s.p r p') ∧
    (i.mnemonic = .DCP →
      ∃ t p', s.write ea (m - 1) = some t ∧ exec i s = .next (t.setP p') ∧ ComparesTo s.a (m - 1) s.p p') ∧
    (i.mnemonic = .ISB →
      ∃ t r p', s.write ea (m + 1) = some t ∧ exec i s = .next ((t.setA r).setP p') ∧
        SubtractsTo s.a (m + 1) (s.flag .C) s.p r p')

/-! ### Frames and whole-machine rules -/

/-- Which instructions write which register (R14 to R17, R37): a register is unchanged by every instruction outside its
list, and the bank table, the launch parameters and the fault latch by every instruction. -/
def Obligations.RegistersOutsideTheDestinationAreKept : Prop :=
  ∀ (i : Instr) (s t : State), exec i s = .next t →
    (i.mnemonic ∉ ([.LDA, .TXA, .TYA, .ADC, .SBC, .AND, .ORA, .EOR, .PLA, .LAX, .SLO, .RLA, .SRE, .RRA, .ISB] :
        List Mnemonic) → (i.mnemonic ∈ shifts → i.operand ≠ .acc) → t.a = s.a) ∧
    (i.mnemonic ∉ ([.LDX, .TAX, .TSX, .LAX, .INX, .DEX] : List Mnemonic) → t.x = s.x) ∧
    (i.mnemonic ∉ ([.LDY, .TAY, .INY, .DEY] : List Mnemonic) → t.y = s.y) ∧
    (i.mnemonic ∉ ([.TXS, .PHA, .PLA, .PHP, .PLP, .JSR, .RTS, .BRK, .RTI] : List Mnemonic) → t.sp = s.sp) ∧
    t.bank = s.bank ∧ t.prgUnits = s.prgUnits ∧ t.extUndoc = s.extUndoc ∧ t.fault = s.fault

/-- Which instructions write which flag (R19's table, R23, R27): a flag is unchanged by every instruction outside its
list. -/
def Obligations.FlagsOutsideTheWrittenAreKept : Prop :=
  ∀ (i : Instr) (s t : State) (f : Flag), exec i s = .next t → i.mnemonic ∉ flagWriters f → t.flag f = s.flag f

/-- Memory outside the stored byte is kept. An instruction that stores nothing (the accumulator forms of the shifts
included) leaves every address reading as before; one that stores at its effective address, as `resolve` computes it
from the state before, leaves every address that does not reach that same byte. -/
def Obligations.MemoryOutsideTheStoreIsKept : Prop :=
  ∀ (i : Instr) (s t : State), exec i s = .next t →
    (¬ storesAtEa i → i.mnemonic ∉ pushers → ∀ b, t.read b = s.read b) ∧
    (storesAtEa i → ∃ ea, resolve i.operand s = .ok (some ea) s ∧
      ∀ b, s.locate b ≠ s.locate ea → t.read b = s.read b)

/-- Memory outside the pushed bytes is kept: PHA and PHP store at 0x0100 + SP, JSR at that and the next stack address
down, BRK at three, all mod 256 within the stack page (R17). -/
def Obligations.MemoryOutsideThePushIsKept : Prop :=
  ∀ (i : Instr) (s t : State) (b : Word), exec i s = .next t → i.mnemonic ∈ pushers →
    s.locate b ≠ s.locate (0x0100 + (s.sp.setWidth 16)) →
    (i.mnemonic = .JSR ∨ i.mnemonic = .BRK → s.locate b ≠ s.locate (0x0100 + ((s.sp - 1).setWidth 16))) →
    (i.mnemonic = .BRK → s.locate b ≠ s.locate (0x0100 + ((s.sp - 2).setWidth 16))) →
      t.read b = s.read b

/-- PC advance (R111): before the operation executes PC has moved past the opcode byte by exactly the mode's byte
count, for every mode and operand; and an instruction that is no branch, jump, call, return or BRK leaves it there, so
the step moves PC by exactly the instruction's length. -/
def Obligations.PcAdvancesByTheLength : Prop :=
  (∀ (s t : State) (i : Instr), fetchInstr s = .ok i t →
    t = s.setPc (s.pc + 1 + BitVec.ofNat 16 i.operand.mode.operandBytes)) ∧
  (∀ (i : Instr) (s t : State), exec i s = .next t → i.mnemonic ∉ pcWriters → t.pc = s.pc) ∧
  (∀ (s t : State) (i : Instr) (bytes : List Byte),
    s.fault = none → decode s.extUndoc bytes = .decoded i [] → BytesAtPc s bytes → i.mnemonic ∉ pcWriters →
      step s = .next t → t.pc = s.pc + BitVec.ofNat 16 i.operand.mode.length)

/-- The Decimal and Interrupt-disable flags are storage only (R24, R25, R146): changing either before an instruction
other than PHP and BRK changes nothing the instruction does but that flag itself, and it completes as before. -/
def Obligations.DecimalAndInterruptFlagsAreStorageOnly : Prop :=
  ∀ (i : Instr) (s t : State) (f : Flag) (v : Bool), (f = .D ∨ f = .I) → exec i s = .next t →
    i.mnemonic ≠ .PHP → i.mnemonic ≠ .BRK →
      ∃ q, exec i (s.setP (putFlag s.p f v)) = .next (t.setP q) ∧ ∀ g, g ≠ f → getFlag q g = getFlag t.p g

/-- The stack round trips (R231, R232, R233; R220 with R221; R222 with R223): what was pushed comes back whatever the
register held meanwhile. PHA then PLA restores A and SP; PHP then PLP restores every flag but Break, which is 0; RTS
after JSR returns to the instruction after the JSR; RTI after BRK returns to the opcode's address plus 2 with the
flags BRK found, Break 0. -/
def Obligations.StackRoundTrips : Prop :=
  ∀ (s : State) (w : Byte) (a : Word), s.legalBanks = true →
    (∃ t u, exec .pha s = .next t ∧ exec .pla (t.setA w) = .next u ∧ u.a = s.a ∧ u.sp = s.sp) ∧
    (∃ t u, exec .php s = .next t ∧ exec .plp (t.setP w) = .next u ∧ u.sp = s.sp ∧
      u.flag .B = false ∧ u.flag .R = true ∧ KeepsFlags s.p u.p [.B, .R]) ∧
    (∃ t u, exec (.jsr a) s = .next t ∧ exec .rts t = .next u ∧ u.pc = s.pc ∧ u.sp = s.sp) ∧
    (cartridgeAssigned s → ∃ t u, exec .brk s = .next t ∧ exec .rti t = .next u ∧ u.pc = s.pc + 1 ∧ u.sp = s.sp ∧
      u.flag .B = false ∧ u.flag .R = true ∧ KeepsFlags s.p u.p [.B, .R])
end

