-- ==== Sys2Proof/Laws/Encoding.lean ====
section
/-! SUPPORT. Joining and splitting words, the length of an operand's bytes, and how decoding follows the table. -/

namespace Sys2Proof

/-- A word is its own two bytes, joined again (R6). -/
@[simp] theorem wordOf_hi_lo (w : Word) : wordOf (hiByte w) (loByte w) = w := by
  apply BitVec.eq_of_toNat_eq
  have := w.isLt
  simp only [wordOf, hiByte, loByte, BitVec.toNat_append, BitVec.extractLsb'_toNat, Nat.shiftRight_zero]
  rw [← Nat.shiftLeft_add_eq_or_of_lt (Nat.mod_lt _ (by decide)), Nat.shiftLeft_eq, Nat.shiftRight_eq_div_pow]
  omega

@[simp] theorem loByte_wordOf (hi lo : Byte) : loByte (wordOf hi lo) = lo := by
  apply BitVec.eq_of_toNat_eq
  have := hi.isLt
  have := lo.isLt
  simp only [wordOf, loByte, BitVec.extractLsb'_toNat, BitVec.toNat_append, Nat.shiftRight_zero]
  rw [← Nat.shiftLeft_add_eq_or_of_lt lo.isLt, Nat.shiftLeft_eq]
  omega

@[simp] theorem hiByte_wordOf (hi lo : Byte) : hiByte (wordOf hi lo) = hi := by
  apply BitVec.eq_of_toNat_eq
  have := hi.isLt
  have := lo.isLt
  simp only [wordOf, hiByte, BitVec.extractLsb'_toNat, BitVec.toNat_append]
  rw [← Nat.shiftLeft_add_eq_or_of_lt lo.isLt, Nat.shiftLeft_eq, Nat.shiftRight_eq_div_pow]
  omega

theorem wordOf_toNat (hi lo : Byte) : (wordOf hi lo).toNat = hi.toNat * 256 + lo.toNat := by
  simp only [wordOf, BitVec.toNat_append]
  rw [← Nat.shiftLeft_add_eq_or_of_lt lo.isLt, Nat.shiftLeft_eq]

/-- An operand lists as many bytes as its mode consumes (R82). -/
theorem Operand.bytes_length (o : Operand) : o.bytes.length = o.mode.operandBytes := by cases o <;> rfl

theorem encode_length (i : Instr) : (encode i).length = i.length := by
  simp only [encode, List.length_cons, Operand.bytes_length, Instr.length, AddrMode.length]
  omega

theorem completeWord {mk : Word → Instr} (i : Instr) (a : Word) (h : mk a = i := by rfl) (rest : List Byte) :
    (Build.word mk).complete ([loByte a, hiByte a] ++ rest) = .decoded i rest := by
  simp [Build.complete, h]

/-! ### The table row by row -/

theorem skipRow {α : Type} {r : List α} (hr : r.length = 16) (rest : List α) (i : Nat) :
    (r ++ rest)[16 + i]? = rest[i]? := by
  rw [List.getElem?_append_right (by omega), hr, Nat.add_sub_cancel_left]

theorem inRow {α : Type} {r : List α} (hr : r.length = 16) (rest : List α) (i : Nat) (hi : i < 16) :
    (r ++ rest)[i]? = r[i]? := List.getElem?_append_left (by omega)

theorem opcodeTable_row0 (n : Nat) (hn : n < 16 := by exact Nat.le_of_ble_eq_true rfl) : opcodeTable[n]? = opcodeRow0[n]? := by
  simp only [opcodeTable, List.append_assoc]
  rw [inRow (by rfl) _ n hn]

theorem opcodeTable_row1 (n : Nat) (hn : n < 16 := by exact Nat.le_of_ble_eq_true rfl) : opcodeTable[16 + n]? = opcodeRow1[n]? := by
  simp only [opcodeTable, List.append_assoc]
  rw [skipRow (by rfl), inRow (by rfl) _ n hn]

theorem opcodeTable_row2 (n : Nat) (hn : n < 16 := by exact Nat.le_of_ble_eq_true rfl) : opcodeTable[16 + (16 + n)]? = opcodeRow2[n]? := by
  simp only [opcodeTable, List.append_assoc]
  rw [skipRow (by rfl), skipRow (by rfl), inRow (by rfl) _ n hn]

theorem opcodeTable_row3 (n : Nat) (hn : n < 16 := by exact Nat.le_of_ble_eq_true rfl) : opcodeTable[16 + (16 + (16 + n))]? = opcodeRow3[n]? := by
  simp only [opcodeTable, List.append_assoc]
  rw [skipRow (by rfl), skipRow (by rfl), skipRow (by rfl), inRow (by rfl) _ n hn]

theorem opcodeTable_row4 (n : Nat) (hn : n < 16 := by exact Nat.le_of_ble_eq_true rfl) : opcodeTable[16 + (16 + (16 + (16 + n)))]? = opcodeRow4[n]? := by
  simp only [opcodeTable, List.append_assoc]
  rw [skipRow (by rfl), skipRow (by rfl), skipRow (by rfl), skipRow (by rfl), inRow (by rfl) _ n hn]

theorem opcodeTable_row5 (n : Nat) (hn : n < 16 := by exact Nat.le_of_ble_eq_true rfl) : opcodeTable[16 + (16 + (16 + (16 + (16 + n))))]? = opcodeRow5[n]? := by
  simp only [opcodeTable, List.append_assoc]
  rw [skipRow (by rfl), skipRow (by rfl), skipRow (by rfl), skipRow (by rfl), skipRow (by rfl), inRow (by rfl) _ n hn]

theorem opcodeTable_row6 (n : Nat) (hn : n < 16 := by exact Nat.le_of_ble_eq_true rfl) : opcodeTable[16 + (16 + (16 + (16 + (16 + (16 + n)))))]? = opcodeRow6[n]? := by
  simp only [opcodeTable, List.append_assoc]
  rw [skipRow (by rfl), skipRow (by rfl), skipRow (by rfl), skipRow (by rfl), skipRow (by rfl), skipRow (by rfl), inRow (by rfl) _ n hn]

theorem opcodeTable_row7 (n : Nat) (hn : n < 16 := by exact Nat.le_of_ble_eq_true rfl) : opcodeTable[16 + (16 + (16 + (16 + (16 + (16 + (16 + n))))))]? = opcodeRow7[n]? := by
  simp only [opcodeTable, List.append_assoc]
  rw [skipRow (by rfl), skipRow (by rfl), skipRow (by rfl), skipRow (by rfl), skipRow (by rfl), skipRow (by rfl), skipRow (by rfl), inRow (by rfl) _ n hn]

theorem opcodeTable_row8 (n : Nat) (hn : n < 16 := by exact Nat.le_of_ble_eq_true rfl) : opcodeTable[16 + (16 + (16 + (16 + (16 + (16 + (16 + (16 + n)))))))]? = opcodeRow8[n]? := by
  simp only [opcodeTable, List.append_assoc]
  rw [skipRow (by rfl), skipRow (by rfl), skipRow (by rfl), skipRow (by rfl), skipRow (by rfl), skipRow (by rfl), skipRow (by rfl), skipRow (by rfl), inRow (by rfl) _ n hn]

theorem opcodeTable_row9 (n : Nat) (hn : n < 16 := by exact Nat.le_of_ble_eq_true rfl) : opcodeTable[16 + (16 + (16 + (16 + (16 + (16 + (16 + (16 + (16 + n))))))))]? = opcodeRow9[n]? := by
  simp only [opcodeTable, List.append_assoc]
  rw [skipRow (by rfl), skipRow (by rfl), skipRow (by rfl), skipRow (by rfl), skipRow (by rfl), skipRow (by rfl), skipRow (by rfl), skipRow (by rfl), skipRow (by rfl), inRow (by rfl) _ n hn]

theorem opcodeTable_rowA (n : Nat) (hn : n < 16 := by exact Nat.le_of_ble_eq_true rfl) : opcodeTable[16 + (16 + (16 + (16 + (16 + (16 + (16 + (16 + (16 + (16 + n)))))))))]? = opcodeRowA[n]? := by
  simp only [opcodeTable, List.append_assoc]
  rw [skipRow (by rfl), skipRow (by rfl), skipRow (by rfl), skipRow (by rfl), skipRow (by rfl), skipRow (by rfl), skipRow (by rfl), skipRow (by rfl), skipRow (by rfl), skipRow (by rfl), inRow (by rfl) _ n hn]

theorem opcodeTable_rowB (n : Nat) (hn : n < 16 := by exact Nat.le_of_ble_eq_true rfl) : opcodeTable[16 + (16 + (16 + (16 + (16 + (16 + (16 + (16 + (16 + (16 + (16 + n))))))))))]? = opcodeRowB[n]? := by
  simp only [opcodeTable, List.append_assoc]
  rw [skipRow (by rfl), skipRow (by rfl), skipRow (by rfl), skipRow (by rfl), skipRow (by rfl), skipRow (by rfl), skipRow (by rfl), skipRow (by rfl), skipRow (by rfl), skipRow (by rfl), skipRow (by rfl), inRow (by rfl) _ n hn]

theorem opcodeTable_rowC (n : Nat) (hn : n < 16 := by exact Nat.le_of_ble_eq_true rfl) : opcodeTable[16 + (16 + (16 + (16 + (16 + (16 + (16 + (16 + (16 + (16 + (16 + (16 + n)))))))))))]? = opcodeRowC[n]? := by
  simp only [opcodeTable, List.append_assoc]
  rw [skipRow (by rfl), skipRow (by rfl), skipRow (by rfl), skipRow (by rfl), skipRow (by rfl), skipRow (by rfl), skipRow (by rfl), skipRow (by rfl), skipRow (by rfl), skipRow (by rfl), skipRow (by rfl), skipRow (by rfl), inRow (by rfl) _ n hn]

theorem opcodeTable_rowD (n : Nat) (hn : n < 16 := by exact Nat.le_of_ble_eq_true rfl) : opcodeTable[16 + (16 + (16 + (16 + (16 + (16 + (16 + (16 + (16 + (16 + (16 + (16 + (16 + n))))))))))))]? = opcodeRowD[n]? := by
  simp only [opcodeTable, List.append_assoc]
  rw [skipRow (by rfl), skipRow (by rfl), skipRow (by rfl), skipRow (by rfl), skipRow (by rfl), skipRow (by rfl), skipRow (by rfl), skipRow (by rfl), skipRow (by rfl), skipRow (by rfl), skipRow (by rfl), skipRow (by rfl), skipRow (by rfl), inRow (by rfl) _ n hn]

theorem opcodeTable_rowE (n : Nat) (hn : n < 16 := by exact Nat.le_of_ble_eq_true rfl) : opcodeTable[16 + (16 + (16 + (16 + (16 + (16 + (16 + (16 + (16 + (16 + (16 + (16 + (16 + (16 + n)))))))))))))]? = opcodeRowE[n]? := by
  simp only [opcodeTable, List.append_assoc]
  rw [skipRow (by rfl), skipRow (by rfl), skipRow (by rfl), skipRow (by rfl), skipRow (by rfl), skipRow (by rfl), skipRow (by rfl), skipRow (by rfl), skipRow (by rfl), skipRow (by rfl), skipRow (by rfl), skipRow (by rfl), skipRow (by rfl), skipRow (by rfl), inRow (by rfl) _ n hn]

theorem opcodeTable_rowF (n : Nat) : opcodeTable[16 + (16 + (16 + (16 + (16 + (16 + (16 + (16 + (16 + (16 + (16 + (16 + (16 + (16 + (16 + n))))))))))))))]? = opcodeRowF[n]? := by
  simp only [opcodeTable, List.append_assoc]
  rw [skipRow (by rfl), skipRow (by rfl), skipRow (by rfl), skipRow (by rfl), skipRow (by rfl), skipRow (by rfl), skipRow (by rfl), skipRow (by rfl), skipRow (by rfl), skipRow (by rfl), skipRow (by rfl), skipRow (by rfl), skipRow (by rfl), skipRow (by rfl), skipRow (by rfl)]

/-- An entry of the table decodes its opcode unless it is an optional one and `EXT_UNDOC` is false (R89). -/
theorem opcodeEntry_of_row {ext : Bool} {op : Byte} {row : OpcodeRow} (h : opcodeTable[op.toNat]? = some (some row))
    (hx : (ext || !row.optional) = true) : opcodeEntry ext op = some row := by
  unfold opcodeEntry
  rw [h]
  cases ext <;> cases hr : row.optional <;> simp_all

theorem decode_cons {ext : Bool} {op : Byte} {row : OpcodeRow} (h : opcodeEntry ext op = some row)
    (rest : List Byte) : decode ext (op :: rest) = row.build.complete rest := by
  simp [decode, h]

end Sys2Proof
end

