-- ==== Sys2Proof/Laws/Flags.lean ====
section
/-! SUPPORT. Reading a flag after writing one, for every flag and every status byte; the packings flag by flag. -/

namespace Sys2Proof.Machine

theorem getFlag_putFlag (p : Byte) (f g : Flag) (v : Bool) :
    getFlag (putFlag p f v) g = if g = f then v else getFlag p g := by
  cases f <;> cases g <;> cases v <;> simp [getFlag, putFlag, Flag.mask, Flag.bit]

@[simp] theorem getFlag_putFlag_same (p : Byte) (f : Flag) (v : Bool) : getFlag (putFlag p f v) f = v := by
  simp [getFlag_putFlag]

@[simp] theorem getFlag_putFlag_other (p : Byte) {f g : Flag} (v : Bool) (h : g ≠ f) :
    getFlag (putFlag p f v) g = getFlag p g := by
  simp [getFlag_putFlag, h]

/-- Two status bytes with the same flags are the same byte. -/
theorem statusByte_ext {p q : Byte} (h : ∀ f, getFlag p f = getFlag q f) : p = q := by
  apply BitVec.eq_of_getLsbD_eq
  intro i hi
  have : i = 0 ∨ i = 1 ∨ i = 2 ∨ i = 3 ∨ i = 4 ∨ i = 5 ∨ i = 6 ∨ i = 7 := by omega
  rcases this with rfl | rfl | rfl | rfl | rfl | rfl | rfl | rfl
  · exact h .C
  · exact h .Z
  · exact h .I
  · exact h .D
  · exact h .B
  · exact h .R
  · exact h .V
  · exact h .S

theorem putFlag_self (p : Byte) (f : Flag) : putFlag p f (getFlag p f) = p :=
  statusByte_ext fun g => by
    by_cases h : g = f
    · subst h; exact getFlag_putFlag_same p g _
    · exact getFlag_putFlag_other p _ h

theorem getFlag_putZS (p r : Byte) (f : Flag) :
    getFlag (putZS p r) f = if f = .S then r.msb else if f = .Z then r == 0 else getFlag p f := by
  simp only [putZS, getFlag_putFlag]

theorem getFlag_putArith (p : Byte) (o : ArithOut) (f : Flag) :
    getFlag (putArith p o) f =
      if f = .S then o.s else if f = .Z then o.z else if f = .V then o.v else if f = .C then o.c
      else getFlag p f := by
  simp only [putArith, getFlag_putFlag]

theorem getFlag_putShift (p : Byte) (o : ShiftOut) (f : Flag) :
    getFlag (putShift p o) f =
      if f = .S then o.s else if f = .Z then o.z else if f = .C then o.c else getFlag p f := by
  simp only [putShift, getFlag_putFlag]

theorem getFlag_putCompare (p : Byte) (o : CompareOut) (f : Flag) :
    getFlag (putCompare p o) f =
      if f = .S then o.s else if f = .Z then o.z else if f = .C then o.c else getFlag p f := by
  simp only [putCompare, getFlag_putFlag]

theorem getFlag_putLogic (p : Byte) (o : LogicOut) (f : Flag) :
    getFlag (putLogic p o) f = if f = .S then o.s else if f = .Z then o.z else getFlag p f := by
  simp only [putLogic, getFlag_putFlag]

theorem getFlag_putBit (p : Byte) (o : BitOut) (f : Flag) :
    getFlag (putBit p o) f =
      if f = .S then o.s else if f = .V then o.v else if f = .Z then o.z else getFlag p f := by
  simp only [putBit, getFlag_putFlag]

theorem getFlag_pushImage (p : Byte) (f : Flag) :
    getFlag (pushImage p) f = if f = .B ∨ f = .R then true else getFlag p f := by
  cases f <;> simp [getFlag, pushImage, Flag.bit]

theorem getFlag_pullImage (v : Byte) (f : Flag) :
    getFlag (pullImage v) f = if f = .B then false else if f = .R then true else getFlag v f := by
  cases f <;> simp [getFlag, pullImage, Flag.bit]

end Sys2Proof.Machine
end

