-- ==== Sys2Proof/Laws/Memory.lean ====
section
/-! SUPPORT. The laws of one memory: a read after a write gives the byte written, other indexes keep theirs, every
write keeps the canonical form, and canonical memories that read alike are equal. -/

namespace Sys2Proof.Machine

@[simp] theorem Memory.read_nil (i : Nat) : Memory.read [] i = Memory.unlisted := rfl

theorem Memory.read_erase (m : Memory) (i j : Nat) :
    (Memory.erase m i).read j = if j = i then Memory.unlisted else m.read j := by
  induction m with
  | nil => simp [Memory.erase]
  | cons c rest ih =>
    obtain ⟨k, w⟩ := c
    simp only [Memory.erase]
    split
    · rename_i h
      rw [ih, Memory.read, ← h]
      split <;> rfl
    · rename_i h
      simp only [Memory.read, ih]
      grind

theorem Memory.read_insert (m : Memory) (i : Nat) (v : Byte) (j : Nat) :
    (Memory.insert m i v).read j = if j = i then v else m.read j := by
  induction m with
  | nil => simp [Memory.insert, Memory.read]
  | cons c rest ih =>
    obtain ⟨k, w⟩ := c
    simp only [Memory.insert]
    split
    · simp only [Memory.read]
    · split <;> simp only [Memory.read, ih] <;> grind

/-- A read after a write, at every index. -/
theorem Memory.read_write (m : Memory) (i : Nat) (v : Byte) (j : Nat) :
    (m.write i v).read j = if j = i then v else m.read j := by
  unfold Memory.write
  split
  · rename_i h; subst h; exact Memory.read_erase m i j
  · exact Memory.read_insert m i v j

@[simp] theorem Memory.read_write_same (m : Memory) (i : Nat) (v : Byte) : (m.write i v).read i = v := by
  simp [Memory.read_write]

theorem Memory.read_write_other (m : Memory) {i j : Nat} (v : Byte) (h : j ≠ i) :
    (m.write i v).read j = m.read j := by
  simp [Memory.read_write, h]

theorem Memory.wfFrom_mono {lo lo' : Nat} {m : Memory} (hle : lo' ≤ lo) (h : Memory.wfFrom lo m = true) :
    Memory.wfFrom lo' m = true := by
  cases m with
  | nil => rfl
  | cons c rest =>
    obtain ⟨k, w⟩ := c
    simp only [Memory.wfFrom, Bool.and_eq_true, decide_eq_true_eq] at h ⊢
    exact ⟨⟨by omega, h.1.2⟩, h.2⟩

theorem Memory.erase_wfFrom {lo : Nat} {m : Memory} (i : Nat) (h : Memory.wfFrom lo m = true) :
    Memory.wfFrom lo (Memory.erase m i) = true := by
  induction m generalizing lo with
  | nil => rfl
  | cons c rest ih =>
    obtain ⟨k, w⟩ := c
    simp only [Memory.wfFrom, Bool.and_eq_true, decide_eq_true_eq] at h
    simp only [Memory.erase]
    split
    · exact Memory.wfFrom_mono (by omega) (ih h.2)
    · simp only [Memory.wfFrom, Bool.and_eq_true, decide_eq_true_eq]
      exact ⟨h.1, ih h.2⟩

theorem Memory.insert_wfFrom {lo : Nat} {m : Memory} {i : Nat} {v : Byte} (hv : v ≠ Memory.unlisted) (hi : lo ≤ i)
    (h : Memory.wfFrom lo m = true) : Memory.wfFrom lo (Memory.insert m i v) = true := by
  induction m generalizing lo with
  | nil => simp [Memory.insert, Memory.wfFrom, hv, hi]
  | cons c rest ih =>
    obtain ⟨k, w⟩ := c
    simp only [Memory.wfFrom, Bool.and_eq_true, decide_eq_true_eq] at h
    simp only [Memory.insert]
    split
    · simp only [Memory.wfFrom, Bool.and_eq_true, decide_eq_true_eq]
      exact ⟨⟨hi, by simp [hv]⟩, ⟨by omega, h.1.2⟩, h.2⟩
    · split
      · simp only [Memory.wfFrom, Bool.and_eq_true, decide_eq_true_eq]
        rename_i heq
        exact ⟨⟨hi, by simp [hv]⟩, heq ▸ h.2⟩
      · simp only [Memory.wfFrom, Bool.and_eq_true, decide_eq_true_eq]
        exact ⟨h.1, ih (by omega) h.2⟩

/-- Every write keeps the canonical form. -/
theorem Memory.write_wf {m : Memory} (i : Nat) (v : Byte) (h : m.wf = true) : (m.write i v).wf = true := by
  unfold Memory.write
  split
  · exact Memory.erase_wfFrom i h
  · rename_i hv; exact Memory.insert_wfFrom hv (Nat.zero_le i) h

theorem Memory.erase_within {n : Nat} {m : Memory} (i : Nat) (h : m.within n = true) :
    (Memory.erase m i).within n = true := by
  induction m with
  | nil => rfl
  | cons c rest ih =>
    simp only [Memory.within, List.all_cons, Bool.and_eq_true] at h ih
    simp only [Memory.erase]
    split
    · exact ih h.2
    · simp only [Memory.within, List.all_cons, Bool.and_eq_true]
      exact ⟨h.1, ih h.2⟩

theorem Memory.insert_within {n : Nat} {m : Memory} {i : Nat} (v : Byte) (hi : i < n) (h : m.within n = true) :
    (Memory.insert m i v).within n = true := by
  induction m with
  | nil => simp [Memory.insert, Memory.within, hi]
  | cons c rest ih =>
    simp only [Memory.within, List.all_cons, Bool.and_eq_true] at h ih
    simp only [Memory.insert]
    split
    · simp only [Memory.within, List.all_cons, Bool.and_eq_true]
      exact ⟨by simpa using hi, h⟩
    · split
      · simp only [Memory.within, List.all_cons, Bool.and_eq_true]
        exact ⟨by simpa using hi, h.2⟩
      · simp only [Memory.within, List.all_cons, Bool.and_eq_true]
        exact ⟨h.1, ih h.2⟩

/-- A write inside the memory's size lists nothing outside it. -/
theorem Memory.write_within {n : Nat} {m : Memory} {i : Nat} (v : Byte) (hi : i < n) (h : m.within n = true) :
    (m.write i v).within n = true := by
  unfold Memory.write
  split
  · exact Memory.erase_within i h
  · exact Memory.insert_within v hi h

theorem Memory.read_below {lo : Nat} {m : Memory} (h : Memory.wfFrom lo m = true) {i : Nat} (hi : i < lo) :
    m.read i = Memory.unlisted := by
  induction m generalizing lo with
  | nil => rfl
  | cons c rest ih =>
    obtain ⟨k, w⟩ := c
    simp only [Memory.wfFrom, Bool.and_eq_true, decide_eq_true_eq] at h
    rw [Memory.read, if_neg (by omega)]
    exact ih h.2 (by omega)

theorem Memory.ext_from {lo : Nat} {m m' : Memory} (h : Memory.wfFrom lo m = true) (h' : Memory.wfFrom lo m' = true)
    (heq : ∀ i, m.read i = m'.read i) : m = m' := by
  induction m generalizing lo m' with
  | nil =>
    cases m' with
    | nil => rfl
    | cons c rest =>
      obtain ⟨k, w⟩ := c
      have := heq k
      simp_all [Memory.wfFrom, Memory.read]
  | cons c rest ih =>
    obtain ⟨k, w⟩ := c
    simp only [Memory.wfFrom, Bool.and_eq_true, decide_eq_true_eq, bne_iff_ne] at h
    cases m' with
    | nil =>
      have := heq k
      simp_all [Memory.read]
    | cons c' rest' =>
      obtain ⟨k', w'⟩ := c'
      simp only [Memory.wfFrom, Bool.and_eq_true, decide_eq_true_eq, bne_iff_ne] at h'
      have hk : k = k' := by
        rcases Nat.lt_trichotomy k k' with hlt | heq' | hgt
        · have := heq k
          rw [Memory.read, if_pos rfl, Memory.read, if_neg (by omega), Memory.read_below h'.2 (by omega)] at this
          exact absurd this h.1.2
        · exact heq'
        · have := heq k'
          rw [Memory.read, if_neg (by omega), Memory.read_below h.2 (by omega), Memory.read, if_pos rfl] at this
          exact absurd this.symm h'.1.2
      subst hk
      have hw : w = w' := by simpa [Memory.read] using heq k
      subst hw
      have : rest = rest' := ih h.2 h'.2 fun i => by
        by_cases hi : i = k
        · subst hi
          rw [Memory.read_below h.2 (by omega), Memory.read_below h'.2 (by omega)]
        · simpa [Memory.read, hi] using heq i
      rw [this]

/-- Canonical memories that read alike at every index are the same data. -/
theorem Memory.ext_of_wf {m m' : Memory} (h : m.wf = true) (h' : m'.wf = true) (heq : ∀ i, m.read i = m'.read i) :
    m = m' := Memory.ext_from h h' heq

end Sys2Proof.Machine
end

