-- ==== Sys2Proof/Laws/State.lean ====
section
/-! SUPPORT. One lemma per field per update of State, each true by rfl: what an update writes and what it leaves. -/

namespace Sys2Proof.Machine

section
variable (s : State) (v : Word)
@[simp] theorem State.setPc_pc : (s.setPc v).pc = v := rfl
@[simp] theorem State.setPc_a : (s.setPc v).a = s.a := rfl
@[simp] theorem State.setPc_x : (s.setPc v).x = s.x := rfl
@[simp] theorem State.setPc_y : (s.setPc v).y = s.y := rfl
@[simp] theorem State.setPc_sp : (s.setPc v).sp = s.sp := rfl
@[simp] theorem State.setPc_p : (s.setPc v).p = s.p := rfl
@[simp] theorem State.setPc_ram : (s.setPc v).ram = s.ram := rfl
@[simp] theorem State.setPc_sram : (s.setPc v).sram = s.sram := rfl
@[simp] theorem State.setPc_prg : (s.setPc v).prg = s.prg := rfl
@[simp] theorem State.setPc_prgUnits : (s.setPc v).prgUnits = s.prgUnits := rfl
@[simp] theorem State.setPc_bank : (s.setPc v).bank = s.bank := rfl
@[simp] theorem State.setPc_extUndoc : (s.setPc v).extUndoc = s.extUndoc := rfl
@[simp] theorem State.setPc_fault : (s.setPc v).fault = s.fault := rfl
end

section
variable (s : State) (v : Byte)
@[simp] theorem State.setA_pc : (s.setA v).pc = s.pc := rfl
@[simp] theorem State.setA_a : (s.setA v).a = v := rfl
@[simp] theorem State.setA_x : (s.setA v).x = s.x := rfl
@[simp] theorem State.setA_y : (s.setA v).y = s.y := rfl
@[simp] theorem State.setA_sp : (s.setA v).sp = s.sp := rfl
@[simp] theorem State.setA_p : (s.setA v).p = s.p := rfl
@[simp] theorem State.setA_ram : (s.setA v).ram = s.ram := rfl
@[simp] theorem State.setA_sram : (s.setA v).sram = s.sram := rfl
@[simp] theorem State.setA_prg : (s.setA v).prg = s.prg := rfl
@[simp] theorem State.setA_prgUnits : (s.setA v).prgUnits = s.prgUnits := rfl
@[simp] theorem State.setA_bank : (s.setA v).bank = s.bank := rfl
@[simp] theorem State.setA_extUndoc : (s.setA v).extUndoc = s.extUndoc := rfl
@[simp] theorem State.setA_fault : (s.setA v).fault = s.fault := rfl
end

section
variable (s : State) (v : Byte)
@[simp] theorem State.setX_pc : (s.setX v).pc = s.pc := rfl
@[simp] theorem State.setX_a : (s.setX v).a = s.a := rfl
@[simp] theorem State.setX_x : (s.setX v).x = v := rfl
@[simp] theorem State.setX_y : (s.setX v).y = s.y := rfl
@[simp] theorem State.setX_sp : (s.setX v).sp = s.sp := rfl
@[simp] theorem State.setX_p : (s.setX v).p = s.p := rfl
@[simp] theorem State.setX_ram : (s.setX v).ram = s.ram := rfl
@[simp] theorem State.setX_sram : (s.setX v).sram = s.sram := rfl
@[simp] theorem State.setX_prg : (s.setX v).prg = s.prg := rfl
@[simp] theorem State.setX_prgUnits : (s.setX v).prgUnits = s.prgUnits := rfl
@[simp] theorem State.setX_bank : (s.setX v).bank = s.bank := rfl
@[simp] theorem State.setX_extUndoc : (s.setX v).extUndoc = s.extUndoc := rfl
@[simp] theorem State.setX_fault : (s.setX v).fault = s.fault := rfl
end

section
variable (s : State) (v : Byte)
@[simp] theorem State.setY_pc : (s.setY v).pc = s.pc := rfl
@[simp] theorem State.setY_a : (s.setY v).a = s.a := rfl
@[simp] theorem State.setY_x : (s.setY v).x = s.x := rfl
@[simp] theorem State.setY_y : (s.setY v).y = v := rfl
@[simp] theorem State.setY_sp : (s.setY v).sp = s.sp := rfl
@[simp] theorem State.setY_p : (s.setY v).p = s.p := rfl
@[simp] theorem State.setY_ram : (s.setY v).ram = s.ram := rfl
@[simp] theorem State.setY_sram : (s.setY v).sram = s.sram := rfl
@[simp] theorem State.setY_prg : (s.setY v).prg = s.prg := rfl
@[simp] theorem State.setY_prgUnits : (s.setY v).prgUnits = s.prgUnits := rfl
@[simp] theorem State.setY_bank : (s.setY v).bank = s.bank := rfl
@[simp] theorem State.setY_extUndoc : (s.setY v).extUndoc = s.extUndoc := rfl
@[simp] theorem State.setY_fault : (s.setY v).fault = s.fault := rfl
end

section
variable (s : State) (v : Byte)
@[simp] theorem State.setSp_pc : (s.setSp v).pc = s.pc := rfl
@[simp] theorem State.setSp_a : (s.setSp v).a = s.a := rfl
@[simp] theorem State.setSp_x : (s.setSp v).x = s.x := rfl
@[simp] theorem State.setSp_y : (s.setSp v).y = s.y := rfl
@[simp] theorem State.setSp_sp : (s.setSp v).sp = v := rfl
@[simp] theorem State.setSp_p : (s.setSp v).p = s.p := rfl
@[simp] theorem State.setSp_ram : (s.setSp v).ram = s.ram := rfl
@[simp] theorem State.setSp_sram : (s.setSp v).sram = s.sram := rfl
@[simp] theorem State.setSp_prg : (s.setSp v).prg = s.prg := rfl
@[simp] theorem State.setSp_prgUnits : (s.setSp v).prgUnits = s.prgUnits := rfl
@[simp] theorem State.setSp_bank : (s.setSp v).bank = s.bank := rfl
@[simp] theorem State.setSp_extUndoc : (s.setSp v).extUndoc = s.extUndoc := rfl
@[simp] theorem State.setSp_fault : (s.setSp v).fault = s.fault := rfl
end

section
variable (s : State) (v : Byte)
@[simp] theorem State.setP_pc : (s.setP v).pc = s.pc := rfl
@[simp] theorem State.setP_a : (s.setP v).a = s.a := rfl
@[simp] theorem State.setP_x : (s.setP v).x = s.x := rfl
@[simp] theorem State.setP_y : (s.setP v).y = s.y := rfl
@[simp] theorem State.setP_sp : (s.setP v).sp = s.sp := rfl
@[simp] theorem State.setP_p : (s.setP v).p = v := rfl
@[simp] theorem State.setP_ram : (s.setP v).ram = s.ram := rfl
@[simp] theorem State.setP_sram : (s.setP v).sram = s.sram := rfl
@[simp] theorem State.setP_prg : (s.setP v).prg = s.prg := rfl
@[simp] theorem State.setP_prgUnits : (s.setP v).prgUnits = s.prgUnits := rfl
@[simp] theorem State.setP_bank : (s.setP v).bank = s.bank := rfl
@[simp] theorem State.setP_extUndoc : (s.setP v).extUndoc = s.extUndoc := rfl
@[simp] theorem State.setP_fault : (s.setP v).fault = s.fault := rfl
end

section
variable (s : State) (v : Memory)
@[simp] theorem State.setRam_pc : (s.setRam v).pc = s.pc := rfl
@[simp] theorem State.setRam_a : (s.setRam v).a = s.a := rfl
@[simp] theorem State.setRam_x : (s.setRam v).x = s.x := rfl
@[simp] theorem State.setRam_y : (s.setRam v).y = s.y := rfl
@[simp] theorem State.setRam_sp : (s.setRam v).sp = s.sp := rfl
@[simp] theorem State.setRam_p : (s.setRam v).p = s.p := rfl
@[simp] theorem State.setRam_ram : (s.setRam v).ram = v := rfl
@[simp] theorem State.setRam_sram : (s.setRam v).sram = s.sram := rfl
@[simp] theorem State.setRam_prg : (s.setRam v).prg = s.prg := rfl
@[simp] theorem State.setRam_prgUnits : (s.setRam v).prgUnits = s.prgUnits := rfl
@[simp] theorem State.setRam_bank : (s.setRam v).bank = s.bank := rfl
@[simp] theorem State.setRam_extUndoc : (s.setRam v).extUndoc = s.extUndoc := rfl
@[simp] theorem State.setRam_fault : (s.setRam v).fault = s.fault := rfl
end

section
variable (s : State) (v : Memory)
@[simp] theorem State.setSram_pc : (s.setSram v).pc = s.pc := rfl
@[simp] theorem State.setSram_a : (s.setSram v).a = s.a := rfl
@[simp] theorem State.setSram_x : (s.setSram v).x = s.x := rfl
@[simp] theorem State.setSram_y : (s.setSram v).y = s.y := rfl
@[simp] theorem State.setSram_sp : (s.setSram v).sp = s.sp := rfl
@[simp] theorem State.setSram_p : (s.setSram v).p = s.p := rfl
@[simp] theorem State.setSram_ram : (s.setSram v).ram = s.ram := rfl
@[simp] theorem State.setSram_sram : (s.setSram v).sram = v := rfl
@[simp] theorem State.setSram_prg : (s.setSram v).prg = s.prg := rfl
@[simp] theorem State.setSram_prgUnits : (s.setSram v).prgUnits = s.prgUnits := rfl
@[simp] theorem State.setSram_bank : (s.setSram v).bank = s.bank := rfl
@[simp] theorem State.setSram_extUndoc : (s.setSram v).extUndoc = s.extUndoc := rfl
@[simp] theorem State.setSram_fault : (s.setSram v).fault = s.fault := rfl
end

section
variable (s : State) (v : Memory)
@[simp] theorem State.setPrg_pc : (s.setPrg v).pc = s.pc := rfl
@[simp] theorem State.setPrg_a : (s.setPrg v).a = s.a := rfl
@[simp] theorem State.setPrg_x : (s.setPrg v).x = s.x := rfl
@[simp] theorem State.setPrg_y : (s.setPrg v).y = s.y := rfl
@[simp] theorem State.setPrg_sp : (s.setPrg v).sp = s.sp := rfl
@[simp] theorem State.setPrg_p : (s.setPrg v).p = s.p := rfl
@[simp] theorem State.setPrg_ram : (s.setPrg v).ram = s.ram := rfl
@[simp] theorem State.setPrg_sram : (s.setPrg v).sram = s.sram := rfl
@[simp] theorem State.setPrg_prg : (s.setPrg v).prg = v := rfl
@[simp] theorem State.setPrg_prgUnits : (s.setPrg v).prgUnits = s.prgUnits := rfl
@[simp] theorem State.setPrg_bank : (s.setPrg v).bank = s.bank := rfl
@[simp] theorem State.setPrg_extUndoc : (s.setPrg v).extUndoc = s.extUndoc := rfl
@[simp] theorem State.setPrg_fault : (s.setPrg v).fault = s.fault := rfl
end

section
variable (s : State) (v : Option FaultRecord)
@[simp] theorem State.setFault_pc : (s.setFault v).pc = s.pc := rfl
@[simp] theorem State.setFault_a : (s.setFault v).a = s.a := rfl
@[simp] theorem State.setFault_x : (s.setFault v).x = s.x := rfl
@[simp] theorem State.setFault_y : (s.setFault v).y = s.y := rfl
@[simp] theorem State.setFault_sp : (s.setFault v).sp = s.sp := rfl
@[simp] theorem State.setFault_p : (s.setFault v).p = s.p := rfl
@[simp] theorem State.setFault_ram : (s.setFault v).ram = s.ram := rfl
@[simp] theorem State.setFault_sram : (s.setFault v).sram = s.sram := rfl
@[simp] theorem State.setFault_prg : (s.setFault v).prg = s.prg := rfl
@[simp] theorem State.setFault_prgUnits : (s.setFault v).prgUnits = s.prgUnits := rfl
@[simp] theorem State.setFault_bank : (s.setFault v).bank = s.bank := rfl
@[simp] theorem State.setFault_extUndoc : (s.setFault v).extUndoc = s.extUndoc := rfl
@[simp] theorem State.setFault_fault : (s.setFault v).fault = v := rfl
end

section
variable (s : State) (v : Bool)
@[simp] theorem State.setExtUndoc_pc : (s.setExtUndoc v).pc = s.pc := rfl
@[simp] theorem State.setExtUndoc_a : (s.setExtUndoc v).a = s.a := rfl
@[simp] theorem State.setExtUndoc_x : (s.setExtUndoc v).x = s.x := rfl
@[simp] theorem State.setExtUndoc_y : (s.setExtUndoc v).y = s.y := rfl
@[simp] theorem State.setExtUndoc_sp : (s.setExtUndoc v).sp = s.sp := rfl
@[simp] theorem State.setExtUndoc_p : (s.setExtUndoc v).p = s.p := rfl
@[simp] theorem State.setExtUndoc_ram : (s.setExtUndoc v).ram = s.ram := rfl
@[simp] theorem State.setExtUndoc_sram : (s.setExtUndoc v).sram = s.sram := rfl
@[simp] theorem State.setExtUndoc_prg : (s.setExtUndoc v).prg = s.prg := rfl
@[simp] theorem State.setExtUndoc_prgUnits : (s.setExtUndoc v).prgUnits = s.prgUnits := rfl
@[simp] theorem State.setExtUndoc_bank : (s.setExtUndoc v).bank = s.bank := rfl
@[simp] theorem State.setExtUndoc_extUndoc : (s.setExtUndoc v).extUndoc = v := rfl
@[simp] theorem State.setExtUndoc_fault : (s.setExtUndoc v).fault = s.fault := rfl
end

/-- Writing a register back with its own value changes nothing. -/
@[simp] theorem State.setPc_self (s : State) : s.setPc s.pc = s := rfl
@[simp] theorem State.setA_self (s : State) : s.setA s.a = s := rfl
@[simp] theorem State.setX_self (s : State) : s.setX s.x = s := rfl
@[simp] theorem State.setY_self (s : State) : s.setY s.y = s := rfl
@[simp] theorem State.setSp_self (s : State) : s.setSp s.sp = s := rfl
@[simp] theorem State.setP_self (s : State) : s.setP s.p = s := rfl
@[simp] theorem State.setRam_self (s : State) : s.setRam s.ram = s := rfl
@[simp] theorem State.setSram_self (s : State) : s.setSram s.sram = s := rfl
@[simp] theorem State.setPrg_self (s : State) : s.setPrg s.prg = s := rfl
@[simp] theorem State.setFault_self (s : State) : s.setFault s.fault = s := rfl
@[simp] theorem State.setExtUndoc_self (s : State) : s.setExtUndoc s.extUndoc = s := rfl
@[simp] theorem State.setPc_setPc (s : State) (v w : Word) : (s.setPc v).setPc w = s.setPc w := rfl
@[simp] theorem State.setA_setA (s : State) (v w : Byte) : (s.setA v).setA w = s.setA w := rfl
@[simp] theorem State.setX_setX (s : State) (v w : Byte) : (s.setX v).setX w = s.setX w := rfl
@[simp] theorem State.setY_setY (s : State) (v w : Byte) : (s.setY v).setY w = s.setY w := rfl
@[simp] theorem State.setSp_setSp (s : State) (v w : Byte) : (s.setSp v).setSp w = s.setSp w := rfl
@[simp] theorem State.setP_setP (s : State) (v w : Byte) : (s.setP v).setP w = s.setP w := rfl
@[simp] theorem State.setRam_setRam (s : State) (v w : Memory) : (s.setRam v).setRam w = s.setRam w := rfl
@[simp] theorem State.setSram_setSram (s : State) (v w : Memory) : (s.setSram v).setSram w = s.setSram w := rfl
@[simp] theorem State.setPrg_setPrg (s : State) (v w : Memory) : (s.setPrg v).setPrg w = s.setPrg w := rfl
@[simp] theorem State.setFault_setFault (s : State) (v w : Option FaultRecord) : (s.setFault v).setFault w = s.setFault w := rfl
@[simp] theorem State.setExtUndoc_setExtUndoc (s : State) (v w : Bool) : (s.setExtUndoc v).setExtUndoc w = s.setExtUndoc w := rfl

@[simp] theorem State.setPc_flag (s : State) (v : Word) (f : Flag) : (s.setPc v).flag f = s.flag f := rfl
@[simp] theorem State.setA_flag (s : State) (v : Byte) (f : Flag) : (s.setA v).flag f = s.flag f := rfl
@[simp] theorem State.setX_flag (s : State) (v : Byte) (f : Flag) : (s.setX v).flag f = s.flag f := rfl
@[simp] theorem State.setY_flag (s : State) (v : Byte) (f : Flag) : (s.setY v).flag f = s.flag f := rfl
@[simp] theorem State.setSp_flag (s : State) (v : Byte) (f : Flag) : (s.setSp v).flag f = s.flag f := rfl
@[simp] theorem State.setRam_flag (s : State) (v : Memory) (f : Flag) : (s.setRam v).flag f = s.flag f := rfl
@[simp] theorem State.setSram_flag (s : State) (v : Memory) (f : Flag) : (s.setSram v).flag f = s.flag f := rfl
@[simp] theorem State.setPrg_flag (s : State) (v : Memory) (f : Flag) : (s.setPrg v).flag f = s.flag f := rfl
@[simp] theorem State.setFault_flag (s : State) (v : Option FaultRecord) (f : Flag) : (s.setFault v).flag f = s.flag f := rfl
@[simp] theorem State.setExtUndoc_flag (s : State) (v : Bool) (f : Flag) : (s.setExtUndoc v).flag f = s.flag f := rfl
@[simp] theorem State.setP_flag (s : State) (v : Byte) (f : Flag) : (s.setP v).flag f = getFlag v f := rfl
theorem State.flag_eq (s : State) (f : Flag) : s.flag f = getFlag s.p f := rfl

end Sys2Proof.Machine
end

