-- ==== Sys2Proof/Laws/Ops.lean ====
section
/-! SUPPORT. What each shared operation can do, said once: the arbiter's reads and writes, the statement sequences,
fetch, push and pull, the break entry and its return. Later proofs cite these and do not unfold the operations. -/

namespace Sys2Proof.Machine

/-! ### Register updates leave the arbiter alone -/

@[simp] theorem State.setPc_bankAt (s : State) (v : Word) (a : Word) : (s.setPc v).bankAt a = s.bankAt a := rfl
@[simp] theorem State.setPc_locate (s : State) (v : Word) (a : Word) : (s.setPc v).locate a = s.locate a := rfl
@[simp] theorem State.setPc_read (s : State) (v : Word) (a : Word) : (s.setPc v).read a = s.read a := rfl
@[simp] theorem State.setA_bankAt (s : State) (v : Byte) (a : Word) : (s.setA v).bankAt a = s.bankAt a := rfl
@[simp] theorem State.setA_locate (s : State) (v : Byte) (a : Word) : (s.setA v).locate a = s.locate a := rfl
@[simp] theorem State.setA_read (s : State) (v : Byte) (a : Word) : (s.setA v).read a = s.read a := rfl
@[simp] theorem State.setX_bankAt (s : State) (v : Byte) (a : Word) : (s.setX v).bankAt a = s.bankAt a := rfl
@[simp] theorem State.setX_locate (s : State) (v : Byte) (a : Word) : (s.setX v).locate a = s.locate a := rfl
@[simp] theorem State.setX_read (s : State) (v : Byte) (a : Word) : (s.setX v).read a = s.read a := rfl
@[simp] theorem State.setY_bankAt (s : State) (v : Byte) (a : Word) : (s.setY v).bankAt a = s.bankAt a := rfl
@[simp] theorem State.setY_locate (s : State) (v : Byte) (a : Word) : (s.setY v).locate a = s.locate a := rfl
@[simp] theorem State.setY_read (s : State) (v : Byte) (a : Word) : (s.setY v).read a = s.read a := rfl
@[simp] theorem State.setSp_bankAt (s : State) (v : Byte) (a : Word) : (s.setSp v).bankAt a = s.bankAt a := rfl
@[simp] theorem State.setSp_locate (s : State) (v : Byte) (a : Word) : (s.setSp v).locate a = s.locate a := rfl
@[simp] theorem State.setSp_read (s : State) (v : Byte) (a : Word) : (s.setSp v).read a = s.read a := rfl
@[simp] theorem State.setP_bankAt (s : State) (v : Byte) (a : Word) : (s.setP v).bankAt a = s.bankAt a := rfl
@[simp] theorem State.setP_locate (s : State) (v : Byte) (a : Word) : (s.setP v).locate a = s.locate a := rfl
@[simp] theorem State.setP_read (s : State) (v : Byte) (a : Word) : (s.setP v).read a = s.read a := rfl
@[simp] theorem State.setFault_bankAt (s : State) (v : Option FaultRecord) (a : Word) : (s.setFault v).bankAt a = s.bankAt a := rfl
@[simp] theorem State.setFault_locate (s : State) (v : Option FaultRecord) (a : Word) : (s.setFault v).locate a = s.locate a := rfl
@[simp] theorem State.setFault_read (s : State) (v : Option FaultRecord) (a : Word) : (s.setFault v).read a = s.read a := rfl
@[simp] theorem State.setExtUndoc_bankAt (s : State) (v : Bool) (a : Word) : (s.setExtUndoc v).bankAt a = s.bankAt a := rfl
@[simp] theorem State.setExtUndoc_locate (s : State) (v : Bool) (a : Word) : (s.setExtUndoc v).locate a = s.locate a := rfl
@[simp] theorem State.setExtUndoc_read (s : State) (v : Bool) (a : Word) : (s.setExtUndoc v).read a = s.read a := rfl

/-! ### The arbiter -/

theorem State.read_eq_of_locate {s : State} {a : Word} {pl : Place} (h : s.locate a = some pl) :
    s.read a = some (s.readPlace pl) := by simp [State.read, h]

theorem State.read_isSome (s : State) (a : Word) : (s.read a).isSome = (s.locate a).isSome := by
  simp [State.read]

theorem State.write_isSome (s : State) (a : Word) (v : Byte) : (s.write a v).isSome = (s.locate a).isSome := by
  simp [State.write]

/-- What a store can do: the address reaches a place, and the state is as before but for that place's byte, which
changes only through a writable bank. -/
theorem State.write_cases {s t : State} {a : Word} {v : Byte} (h : s.write a v = some t) :
    ∃ pl, s.locate a = some pl ∧
      (((s.bankAt a).writable = true ∧ t = s.writePlace v pl) ∨ ((s.bankAt a).writable = false ∧ t = s)) := by
  simp only [State.write, Option.map_eq_some_iff] at h
  obtain ⟨pl, hl, rfl⟩ := h
  refine ⟨pl, hl, ?_⟩
  cases hw : (s.bankAt a).writable <;> simp

theorem State.write_of_locate {s : State} {a : Word} {v : Byte} {pl : Place} (h : s.locate a = some pl) :
    s.write a v = some (if (s.bankAt a).writable then s.writePlace v pl else s) := by
  simp [State.write, h]

/-- A store of place `pl` leaves every field but the memories. -/
theorem State.writePlace_fields (s : State) (v : Byte) (pl : Place) :
    (s.writePlace v pl).pc = s.pc ∧ (s.writePlace v pl).a = s.a ∧ (s.writePlace v pl).x = s.x ∧
    (s.writePlace v pl).y = s.y ∧ (s.writePlace v pl).sp = s.sp ∧ (s.writePlace v pl).p = s.p ∧
    (s.writePlace v pl).prgUnits = s.prgUnits ∧ (s.writePlace v pl).bank = s.bank ∧
    (s.writePlace v pl).extUndoc = s.extUndoc ∧ (s.writePlace v pl).fault = s.fault := by
  cases pl <;> exact ⟨rfl, rfl, rfl, rfl, rfl, rfl, rfl, rfl, rfl, rfl⟩

theorem State.write_fields {s t : State} {a : Word} {v : Byte} (h : s.write a v = some t) :
    t.pc = s.pc ∧ t.a = s.a ∧ t.x = s.x ∧ t.y = s.y ∧ t.sp = s.sp ∧ t.p = s.p ∧ t.prgUnits = s.prgUnits ∧
    t.bank = s.bank ∧ t.extUndoc = s.extUndoc ∧ t.fault = s.fault := by
  obtain ⟨pl, -, ⟨-, rfl⟩ | ⟨-, rfl⟩⟩ := State.write_cases h
  · exact State.writePlace_fields s v pl
  · exact ⟨rfl, rfl, rfl, rfl, rfl, rfl, rfl, rfl, rfl, rfl⟩

theorem State.locate_of_bank {s t : State} (h : t.bank = s.bank) (a : Word) : t.locate a = s.locate a := by
  simp [State.locate, State.bankAt, h]

theorem State.bankAt_of_bank {s t : State} (h : t.bank = s.bank) (a : Word) : t.bankAt a = s.bankAt a := by
  simp [State.bankAt, h]

@[simp] theorem State.writePlace_locate (s : State) (v : Byte) (pl : Place) (a : Word) :
    (s.writePlace v pl).locate a = s.locate a := by cases pl <;> rfl

theorem State.write_locate {s t : State} {a : Word} {v : Byte} (h : s.write a v = some t) (b : Word) :
    t.locate b = s.locate b := by
  obtain ⟨-, -, -, -, -, -, -, hb, -⟩ := State.write_fields h
  exact State.locate_of_bank hb b

theorem State.readPlace_writePlace (s : State) (v : Byte) (pl q : Place) :
    (s.writePlace v pl).readPlace q = if q = pl then v else s.readPlace q := by
  cases pl <;> cases q <;> simp [State.writePlace, State.readPlace, Memory.read_write]

/-- A read after a store, at every address: the byte stored wherever the same byte of a writable bank is reached, and
what was there before everywhere else. -/
theorem State.read_after_write {s t : State} {a : Word} {v : Byte} (h : s.write a v = some t) (b : Word) :
    t.read b = if s.locate b = s.locate a ∧ (s.bankAt a).writable = true then some v else s.read b := by
  obtain ⟨pl, hl, ⟨hw, rfl⟩ | ⟨hw, rfl⟩⟩ := State.write_cases h
  · simp only [State.read, State.writePlace_locate, hl, hw, and_true]
    cases hb : s.locate b with
    | none => simp
    | some q => simp only [Option.map_some, State.readPlace_writePlace, Option.some.injEq]; split <;> rfl
  · simp [hw]

/-! ### Statement sequences -/

section
variable {α β : Type}

@[simp] theorem M.pure_apply (a : α) (s : State) : (pure a : M α) s = .ok a s := rfl

theorem M.bind_apply (m : M α) (f : α → M β) (s : State) :
    (m >>= f) s = match m s with
      | .ok a t => f a t
      | .error r t => .error r t := by
  show EStateM.bind m f s = _
  unfold EStateM.bind
  cases m s <;> rfl

/-- A sequence whose first part succeeds goes on from the state it left. -/
theorem M.bind_ok {m : M α} {f : α → M β} {s t : State} {a : α} (h : m s = .ok a t) : (m >>= f) s = f a t := by
  simp [M.bind_apply, h]

/-- A sequence whose first part faults ends there. -/
theorem M.bind_error {m : M α} {f : α → M β} {s t : State} {r : FaultRecord} (h : m s = .error r t) :
    (m >>= f) s = .error r t := by
  simp [M.bind_apply, h]

/-- Inversion: a sequence that succeeds did so in both parts. -/
theorem M.bind_eq_ok {m : M α} {f : α → M β} {s u : State} {b : β} (h : (m >>= f) s = .ok b u) :
    ∃ a t, m s = .ok a t ∧ f a t = .ok b u := by
  rw [M.bind_apply] at h
  cases hm : m s with
  | ok a t => rw [hm] at h; exact ⟨a, t, rfl, h⟩
  | error r t => rw [hm] at h; cases h

@[simp] theorem look_apply (f : State → α) (s : State) : look f s = .ok (f s) s := rfl
@[simp] theorem update_apply (f : State → State) (s : State) : update f s = .ok () (f s) := rfl
@[simp] theorem raise_apply (r : FaultRecord) (s : State) : (raise r : M α) s = .error r s := rfl

@[simp] theorem look_bind_apply (g : State → α) (f : α → M β) (s : State) : (look g >>= f) s = f (g s) s := rfl
@[simp] theorem update_bind_apply (g : State → State) (f : Unit → M β) (s : State) :
    (update g >>= f) s = f () (g s) := rfl
@[simp] theorem pure_bind_apply (a : α) (f : α → M β) (s : State) : ((pure a : M α) >>= f) s = f a s := rfl

end

@[simp] theorem setFlag_apply (f : Flag) (v : Bool) (s : State) :
    setFlag f v s = .ok () (s.setP (putFlag s.p f v)) := rfl
@[simp] theorem setZS_apply (r : Byte) (s : State) : setZS r s = .ok () (s.setP (putZS s.p r)) := rfl
@[simp] theorem setPC_apply (v : Word) (s : State) : setPC v s = .ok () (s.setPc v) := rfl

theorem memRead_of_some {a : Word} {s : State} {v : Byte} (h : s.read a = some v) : memRead a s = .ok v s := by
  simp [memRead, h]

theorem memRead_of_none {a : Word} {s : State} (h : s.read a = none) :
    memRead a s = .error (.addressingError a .read) s := by
  simp [memRead, h]

/-- A read answers the byte at the address and changes nothing. -/
theorem memRead_eq_ok {a : Word} {s t : State} {v : Byte} (h : memRead a s = .ok v t) : t = s ∧ s.read a = some v := by
  unfold memRead at h
  split at h <;> cases h
  exact ⟨rfl, by assumption⟩

theorem memWrite_of_some {a : Word} {v : Byte} {s t : State} (h : s.write a v = some t) :
    memWrite a v s = .ok () t := by
  simp [memWrite, h]

theorem memWrite_of_none {a : Word} {v : Byte} {s : State} (h : s.write a v = none) :
    memWrite a v s = .error (.addressingError a .write) s := by
  simp [memWrite, h]

/-- A write that succeeds is a store of the arbiter. -/
theorem memWrite_eq_ok {a : Word} {v : Byte} {s t : State} {u : Unit} (h : memWrite a v s = .ok u t) :
    s.write a v = some t := by
  unfold memWrite at h
  split at h <;> cases h
  assumption

theorem memRead16_of_some {la ha : Word} {s : State} {lo hi : Byte} (hl : s.read la = some lo)
    (hh : s.read ha = some hi) : memRead16 la ha s = .ok (wordOf hi lo) s := by
  rw [memRead16, M.bind_ok (memRead_of_some hl), M.bind_ok (memRead_of_some hh), M.pure_apply]

/-- A 16-bit read answers the word at the two addresses and changes nothing. -/
theorem memRead16_eq_ok {la ha : Word} {s t : State} {w : Word} (h : memRead16 la ha s = .ok w t) :
    t = s ∧ ∃ lo hi, s.read la = some lo ∧ s.read ha = some hi ∧ w = wordOf hi lo := by
  obtain ⟨lo, s1, h1, hrest⟩ := M.bind_eq_ok h
  obtain ⟨hi, s2, h2, hend⟩ := M.bind_eq_ok hrest
  clear h hrest
  obtain ⟨rfl, hl⟩ := memRead_eq_ok h1
  obtain ⟨rfl, hh⟩ := memRead_eq_ok h2
  cases hend
  exact ⟨rfl, lo, hi, hl, hh, rfl⟩

theorem fetch8_of_some {s : State} {v : Byte} (h : s.read s.pc = some v) :
    fetch8 s = .ok v (s.setPc (s.pc + 1)) := by
  rw [fetch8, look_bind_apply, M.bind_ok (memRead_of_some h), update_bind_apply, M.pure_apply]

theorem fetch8_of_none {s : State} (h : s.read s.pc = none) :
    fetch8 s = .error (.addressingError s.pc .read) s := by
  rw [fetch8, look_bind_apply, M.bind_error (memRead_of_none h)]

/-- A fetch answers the byte at PC and moves PC past it. -/
theorem fetch8_eq_ok {s t : State} {v : Byte} (h : fetch8 s = .ok v t) :
    s.read s.pc = some v ∧ t = s.setPc (s.pc + 1) := by
  rw [fetch8, look_bind_apply] at h
  obtain ⟨v', s1, h1, hend⟩ := M.bind_eq_ok h
  clear h
  obtain ⟨rfl, hv⟩ := memRead_eq_ok h1
  cases hend
  exact ⟨hv, rfl⟩

theorem push_of_write {s t : State} {v : Byte} (h : s.write (stackAddr s.sp) v = some t) :
    push v s = .ok () (t.setSp (s.sp - 1)) := by
  have hsp : t.sp = s.sp := (State.write_fields h).2.2.2.2.1
  rw [push, look_bind_apply, M.bind_ok (memWrite_of_some h), update_apply, hsp]

/-- A push stores at the address SP named and lowers SP by 1. -/
theorem push_eq_ok {s t : State} {v : Byte} {u : Unit} (h : push v s = .ok u t) :
    ∃ w, s.write (stackAddr s.sp) v = some w ∧ t = w.setSp (s.sp - 1) := by
  rw [push, look_bind_apply] at h
  obtain ⟨_, w, h1, hend⟩ := M.bind_eq_ok h
  clear h
  have hw := memWrite_eq_ok h1
  rw [update_apply, (State.write_fields hw).2.2.2.2.1] at hend
  cases hend
  exact ⟨w, hw, rfl⟩

theorem pop_of_read {s : State} {v : Byte} (h : s.read (stackAddr (s.sp + 1)) = some v) :
    pop s = .ok v (s.setSp (s.sp + 1)) := by
  have h' : (s.setSp (s.sp + 1)).read (stackAddr (s.sp + 1)) = some v := h
  rw [pop, update_bind_apply, look_bind_apply, State.setSp_sp, memRead_of_some h']

/-- A pull raises SP by 1 and answers the byte at the address SP then names. -/
theorem pop_eq_ok {s t : State} {v : Byte} (h : pop s = .ok v t) :
    s.read (stackAddr (s.sp + 1)) = some v ∧ t = s.setSp (s.sp + 1) := by
  rw [pop, update_bind_apply, look_bind_apply] at h
  obtain ⟨rfl, hv⟩ := memRead_eq_ok h
  exact ⟨hv, rfl⟩

theorem pushWord_eq_ok {s t : State} {w : Word} {u : Unit} (h : pushWord w s = .ok u t) :
    ∃ s1 s2, s.write (stackAddr s.sp) (hiByte w) = some s1 ∧
      (s1.setSp (s.sp - 1)).write (stackAddr (s.sp - 1)) (loByte w) = some s2 ∧ t = s2.setSp (s.sp - 1 - 1) := by
  obtain ⟨_, m, h1, h2⟩ := M.bind_eq_ok h
  obtain ⟨s1, hw1, rfl⟩ := push_eq_ok h1
  obtain ⟨s2, hw2, rfl⟩ := push_eq_ok h2
  exact ⟨s1, s2, hw1, hw2, rfl⟩

theorem popWord_eq_ok {s t : State} {w : Word} (h : popWord s = .ok w t) :
    ∃ lo hi, s.read (stackAddr (s.sp + 1)) = some lo ∧ s.read (stackAddr (s.sp + 1 + 1)) = some hi ∧
      w = wordOf hi lo ∧ t = s.setSp (s.sp + 1 + 1) := by
  obtain ⟨lo, m, h1, hrest⟩ := M.bind_eq_ok h
  obtain ⟨hi, m2, h2, hend⟩ := M.bind_eq_ok hrest
  clear h hrest
  obtain ⟨hl, rfl⟩ := pop_eq_ok h1
  obtain ⟨hh, rfl⟩ := pop_eq_ok h2
  cases hend
  exact ⟨lo, hi, hl, by simpa using hh, rfl, rfl⟩

theorem popWord_of_read {s : State} {lo hi : Byte} (hl : s.read (stackAddr (s.sp + 1)) = some lo)
    (hh : s.read (stackAddr (s.sp + 1 + 1)) = some hi) :
    popWord s = .ok (wordOf hi lo) (s.setSp (s.sp + 1 + 1)) := by
  have hh' : (s.setSp (s.sp + 1)).read (stackAddr ((s.setSp (s.sp + 1)).sp + 1)) = some hi := by simpa using hh
  rw [popWord, M.bind_ok (pop_of_read hl), M.bind_ok (pop_of_read hh'), M.pure_apply]
  rfl

/-! ### The end of an instruction -/

theorem finish_of_ok {m : M Unit} {s t : State} {u : Unit} (h : m s = .ok u t) : finish m s = .next t := by
  simp [finish, h]

theorem finish_of_error {m : M Unit} {s t : State} {r : FaultRecord} (h : m s = .error r t) :
    finish m s = .fault (latched r t) := by
  simp [finish, h]

/-- An instruction that answers a next state ran to its end. -/
theorem finish_eq_next {m : M Unit} {s t : State} (h : finish m s = .next t) : m s = .ok () t := by
  unfold finish at h
  split at h <;> cases h
  assumption

/-! ### The stack lies in bank 0 -/

theorem stackAddr_toNat (sp : Byte) : (stackAddr sp).toNat = 256 + sp.toNat := by
  have := sp.isLt
  have hpage : (256#16).toNat = 256 := rfl
  simp only [stackAddr, Config.stackPage, zext16, BitVec.toNat_add, BitVec.toNat_setWidth, BitVec.ofNat_eq_ofNat, hpage]
  omega

theorem stackAddr_inj {a b : Byte} (h : stackAddr a = stackAddr b) : a = b := by
  apply BitVec.eq_of_toNat_eq
  have := congrArg BitVec.toNat h
  rw [stackAddr_toNat, stackAddr_toNat] at this
  omega

/-- With bank 0 system RAM, a stack address reaches RAM byte `256 + SP` (R17). -/
theorem State.locate_stackAddr {s : State} (h : s.bank[0] = .sysRam) (sp : Byte) :
    s.locate (stackAddr sp) = some (.ram (256 + sp.toNat)) := by
  have hlt := sp.isLt
  have hidx : bankIndex (stackAddr sp) = 0 := by
    simp only [bankIndex, stackAddr_toNat, Config.bankSize]; omega
  have hbank : s.bankAt (stackAddr sp) = .sysRam := by
    simp only [State.bankAt, hidx]; exact h
  simp only [State.locate, hbank, BankEntry.place, bankOffset, stackAddr_toNat, Config.bankSize, Config.ramSize]
  congr 2
  omega

theorem State.bankAt_stackAddr {s : State} (h : s.bank[0] = .sysRam) (sp : Byte) :
    s.bankAt (stackAddr sp) = .sysRam := by
  have hlt := sp.isLt
  have hidx : bankIndex (stackAddr sp) = 0 := by
    simp only [bankIndex, stackAddr_toNat, Config.bankSize]; omega
  simp only [State.bankAt, hidx]; exact h

end Sys2Proof.Machine
end

