-- ==== Sys2Proof/Laws/Operands.lean ====
section
/-! SUPPORT. What resolving, reading and writing an operand can do: a resolver and an operand's read change nothing,
an operand's write is a store or an update of the accumulator. -/

namespace Sys2Proof.Machine

theorem zeroPagePointer_eq_ok {z : Byte} {s t : State} {w : Word} (h : zeroPagePointer z s = .ok w t) :
    t = s ∧ ∃ lo hi, s.read (zext16 z) = some lo ∧ s.read (zext16 (z + 1)) = some hi ∧ w = wordOf hi lo :=
  memRead16_eq_ok h

section
variable (s : State) (b : Byte) (a : Word)
@[simp] theorem resolve_imp : resolve .imp s = .ok none s := rfl
@[simp] theorem resolve_acc : resolve .acc s = .ok none s := rfl
@[simp] theorem resolve_imm : resolve (.imm b) s = .ok (some (s.pc - 1)) s := rfl
@[simp] theorem resolve_zp : resolve (.zp b) s = .ok (some (zext16 b)) s := rfl
@[simp] theorem resolve_zpx : resolve (.zpx b) s = .ok (some (zext16 (b + s.x))) s := rfl
@[simp] theorem resolve_zpy : resolve (.zpy b) s = .ok (some (zext16 (b + s.y))) s := rfl
@[simp] theorem resolve_abs : resolve (.abs a) s = .ok (some a) s := rfl
@[simp] theorem resolve_abx : resolve (.abx a) s = .ok (some (a + zext16 s.x)) s := rfl
@[simp] theorem resolve_aby : resolve (.aby a) s = .ok (some (a + zext16 s.y)) s := rfl
@[simp] theorem resolve_rel : resolve (.rel b) s = .ok (some (s.pc + sext16 b)) s := rfl
theorem resolve_ind : resolve (.ind a) s = (memRead16 a (samePageNext a) >>= fun w => pure (some w)) s := rfl
theorem resolve_izx : resolve (.izx b) s = (zeroPagePointer (b + s.x) >>= fun w => pure (some w)) s := rfl
theorem resolve_izy : resolve (.izy b) s =
    (zeroPagePointer b >>= fun w => look State.y >>= fun y => pure (some (w + zext16 y))) s := rfl
end

/-- A resolver that answers an address changes nothing: it only reads (R110). -/
theorem resolve_state {o : Operand} {s t : State} {ea : Option Word} (h : resolve o s = .ok ea t) : t = s := by
  cases o with
  | ind p =>
    rw [resolve_ind] at h
    obtain ⟨w, s1, h1, hend⟩ := M.bind_eq_ok h
    cases hend
    exact (memRead16_eq_ok h1).1
  | izx b =>
    rw [resolve_izx] at h
    obtain ⟨w, s1, h1, hend⟩ := M.bind_eq_ok h
    cases hend
    exact (zeroPagePointer_eq_ok h1).1
  | izy b =>
    rw [resolve_izy] at h
    obtain ⟨w, s1, h1, hend⟩ := M.bind_eq_ok h
    cases hend
    exact (zeroPagePointer_eq_ok h1).1
  | _ => cases h; rfl

theorem readEa_state {ea : Option Word} {s t : State} {v : Byte} (h : readEa ea s = .ok v t) : t = s := by
  cases ea with
  | none => cases h; rfl
  | some a => exact (memRead_eq_ok h).1

/-- An operand's write is an update of A for the sentinel, and a store otherwise. -/
theorem writeEa_eq_ok {ea : Option Word} {v : Byte} {s t : State} {u : Unit} (h : writeEa ea v s = .ok u t) :
    (ea = none ∧ t = s.setA v) ∨ ∃ a, ea = some a ∧ s.write a v = some t := by
  cases ea with
  | none => cases h; exact .inl ⟨rfl, rfl⟩
  | some a => exact .inr ⟨a, rfl, memWrite_eq_ok h⟩

@[simp] theorem writeEa_none (v : Byte) (s : State) : writeEa none v s = .ok () (s.setA v) := rfl
@[simp] theorem readEa_none (s : State) : readEa none s = .ok s.a s := rfl
@[simp] theorem jumpTo_some (a : Word) (s : State) : jumpTo (some a) s = .ok () (s.setPc a) := rfl
@[simp] theorem jumpTo_none (s : State) : jumpTo none s = .ok () s := rfl

theorem loadOperand_state {o : Operand} {s t : State} {v : Byte} (h : loadOperand o s = .ok v t) : t = s := by
  cases o with
  | imm b => cases h; rfl
  | _ =>
    obtain ⟨ea, s1, h1, hend⟩ := M.bind_eq_ok h
    clear h
    obtain rfl := resolve_state h1
    exact readEa_state hend

/-- Reading an operand of a mode with an address: resolve it, then read the byte. -/
theorem loadOperand_of_read {o : Operand} {s : State} {ea : Option Word} {v : Byte} (ho : o.mode ≠ .immediate)
    (hr : resolve o s = .ok ea s) (hv : readEa ea s = .ok v s) : loadOperand o s = .ok v s := by
  cases o with
  | imm b => exact absurd rfl ho
  | _ => simp only [loadOperand, M.bind_ok hr, hv]

end Sys2Proof.Machine
end

