-- ==== Sys2Proof/Laws/Exec.lean ====
section
/-! SUPPORT. Dispatch read by mnemonic (R99): every arm of `exec` runs its mnemonic's operation on its row's operand, so
a statement about a mnemonic needs one case, not one per opcode. -/

namespace Sys2Proof.Machine

/-- The operation a mnemonic names, over an operand. -/
def handler : Mnemonic → Operand → M Unit
  | .LDA, o => opLda o
  | .LDX, o => opLdx o
  | .LDY, o => opLdy o
  | .STA, o => opSta o
  | .STX, o => opStx o
  | .STY, o => opSty o
  | .TAX, _ => opTax
  | .TAY, _ => opTay
  | .TXA, _ => opTxa
  | .TYA, _ => opTya
  | .TSX, _ => opTsx
  | .TXS, _ => opTxs
  | .ADC, o => opAdc o
  | .SBC, o => opSbc o
  | .AND, o => opAnd o
  | .ORA, o => opOra o
  | .EOR, o => opEor o
  | .CMP, o => opCmp o
  | .CPX, o => opCpx o
  | .CPY, o => opCpy o
  | .BIT, o => opBit o
  | .INC, o => opInc o
  | .DEC, o => opDec o
  | .INX, _ => opInx
  | .INY, _ => opIny
  | .DEX, _ => opDex
  | .DEY, _ => opDey
  | .ASL, o => opAsl o
  | .LSR, o => opLsr o
  | .ROL, o => opRol o
  | .ROR, o => opRor o
  | .BCC, o => branchIf .C false o
  | .BCS, o => branchIf .C true o
  | .BEQ, o => branchIf .Z true o
  | .BNE, o => branchIf .Z false o
  | .BMI, o => branchIf .S true o
  | .BPL, o => branchIf .S false o
  | .BVC, o => branchIf .V false o
  | .BVS, o => branchIf .V true o
  | .JMP, o => opJmp o
  | .JSR, o => opJsr o
  | .RTS, _ => opRts
  | .BRK, _ => opBrk
  | .RTI, _ => opRti
  | .PHA, _ => opPha
  | .PLA, _ => opPla
  | .PHP, _ => opPhp
  | .PLP, _ => opPlp
  | .CLC, _ => setFlag .C false
  | .SEC, _ => setFlag .C true
  | .CLI, _ => setFlag .I false
  | .SEI, _ => setFlag .I true
  | .CLD, _ => setFlag .D false
  | .SED, _ => setFlag .D true
  | .CLV, _ => setFlag .V false
  | .NOP, o => opNop o
  | .LAX, o => opLax o
  | .SAX, o => opSax o
  | .SLO, o => opSlo o
  | .RLA, o => opRla o
  | .SRE, o => opSre o
  | .RRA, o => opRra o
  | .DCP, o => opDcp o
  | .ISB, o => opIsb o
  | .UNK, _ => pure ()

/-- Every instruction runs the operation of its mnemonic on its operand. -/
theorem exec_eq_handler (i : Instr) (s : State) : exec i s = finish (handler i.mnemonic i.operand) s := by
  cases i <;> rfl

/-- An instruction whose operation runs to its end answers the state it left. -/
theorem exec_of_handler_ok {i : Instr} {s t : State} {u : Unit} (h : handler i.mnemonic i.operand s = .ok u t) :
    exec i s = .next t := by
  rw [exec_eq_handler, finish_of_ok h]

theorem handler_of_exec_next {i : Instr} {s t : State} (h : exec i s = .next t) :
    handler i.mnemonic i.operand s = .ok () t := finish_eq_next (exec_eq_handler i s ▸ h)

/-- No instruction has the mnemonic of an undefined opcode. -/
theorem mnemonic_ne_unk (i : Instr) : i.mnemonic ≠ .UNK := by
  cases i <;> exact Mnemonic.noConfusion

/-- No instruction is refused. -/
theorem exec_ne_refused (i : Instr) (s : State) (r : Refusal) : exec i s ≠ .refused r := by
  rw [exec_eq_handler]
  unfold finish
  split <;> simp

end Sys2Proof.Machine
end

