-- ==== Sys2Proof/Laws/Meanings.lean ====
section
/-! SUPPORT. What each operation does, said once and both ways: it ends in the state `t` exactly when its reads and
writes succeed as listed and `t` is the state they make. Frames read these from left to right, completions from right to
left. -/

namespace Sys2Proof.Machine

/-! ### Sequences and single accesses -/

theorem M.bind_ok_iff {α β : Type} {m : M α} {f : α → M β} {s u : State} {b : β} :
    (m >>= f) s = .ok b u ↔ ∃ a t, m s = .ok a t ∧ f a t = .ok b u :=
  ⟨M.bind_eq_ok, fun ⟨_, _, h1, h2⟩ => (M.bind_ok h1).trans h2⟩

theorem memRead_ok_iff {a : Word} {s t : State} {v : Byte} : memRead a s = .ok v t ↔ s.read a = some v ∧ s = t :=
  ⟨fun h => ⟨(memRead_eq_ok h).2, (memRead_eq_ok h).1.symm⟩, fun ⟨h, e⟩ => e ▸ memRead_of_some h⟩

theorem memWrite_ok_iff {a : Word} {v : Byte} {s t : State} {u : Unit} :
    memWrite a v s = .ok u t ↔ s.write a v = some t := ⟨memWrite_eq_ok, memWrite_of_some⟩

/-- A sequence that begins with resolving an operand goes on from the state it started in. -/
theorem resolve_bind_ok_iff {β : Type} {o : Operand} {f : Option Word → M β} {s t : State} {b : β} :
    (resolve o >>= f) s = .ok b t ↔ ∃ ea, resolve o s = .ok ea s ∧ f ea s = .ok b t := by
  rw [M.bind_ok_iff]
  constructor
  · rintro ⟨ea, u, h1, h2⟩
    obtain rfl := resolve_state h1
    exact ⟨ea, h1, h2⟩
  · rintro ⟨ea, h1, h2⟩
    exact ⟨ea, s, h1, h2⟩

theorem readEa_bind_ok_iff {β : Type} {ea : Option Word} {f : Byte → M β} {s t : State} {b : β} :
    (readEa ea >>= f) s = .ok b t ↔ ∃ v, readEa ea s = .ok v s ∧ f v s = .ok b t := by
  rw [M.bind_ok_iff]
  constructor
  · rintro ⟨v, u, h1, h2⟩
    obtain rfl := readEa_state h1
    exact ⟨v, h1, h2⟩
  · rintro ⟨v, h1, h2⟩
    exact ⟨v, s, h1, h2⟩

theorem loadOperand_bind_ok_iff {β : Type} {o : Operand} {f : Byte → M β} {s t : State} {b : β} :
    (loadOperand o >>= f) s = .ok b t ↔ ∃ v, loadOperand o s = .ok v s ∧ f v s = .ok b t := by
  rw [M.bind_ok_iff]
  constructor
  · rintro ⟨v, u, h1, h2⟩
    obtain rfl := loadOperand_state h1
    exact ⟨v, h1, h2⟩
  · rintro ⟨v, h1, h2⟩
    exact ⟨v, s, h1, h2⟩

/-! ### A store commutes with what it does not touch -/

theorem State.write_setP (s : State) (p : Byte) (a : Word) (v : Byte) :
    (s.setP p).write a v = (s.write a v).map (fun t => t.setP p) := by
  simp only [State.write, State.setP_locate, State.setP_bankAt]
  cases hl : s.locate a with
  | none => rfl
  | some pl =>
    by_cases hw : (s.bankAt a).writable = true <;> simp only [hw, Option.map_some] <;> cases pl <;> rfl

theorem State.write_setSp (s : State) (p : Byte) (a : Word) (v : Byte) :
    (s.setSp p).write a v = (s.write a v).map (fun t => t.setSp p) := by
  simp only [State.write, State.setSp_locate, State.setSp_bankAt]
  cases hl : s.locate a with
  | none => rfl
  | some pl =>
    by_cases hw : (s.bankAt a).writable = true <;> simp only [hw, Option.map_some] <;> cases pl <;> rfl

theorem writeEa_setP {ea : Option Word} {v p : Byte} {s t : State} {u : Unit} :
    writeEa ea v (s.setP p) = .ok u t ↔ ∃ w, writeEa ea v s = .ok () w ∧ w.setP p = t := by
  cases ea with
  | none => simp [State.setA, State.setP]
  | some a =>
    show memWrite a v (s.setP p) = .ok u t ↔ ∃ w, memWrite a v s = .ok () w ∧ w.setP p = t
    simp only [memWrite_ok_iff, State.write_setP, Option.map_eq_some_iff]

/-- A write through an effective address leaves the status byte, X, Y, SP, PC, the bank table, the launch parameters and
the fault latch. -/
theorem writeEa_fields {ea : Option Word} {v : Byte} {s t : State} {u : Unit} (h : writeEa ea v s = .ok u t) :
    t.p = s.p ∧ t.pc = s.pc ∧ t.x = s.x ∧ t.y = s.y ∧ t.sp = s.sp ∧ t.bank = s.bank ∧ t.prgUnits = s.prgUnits ∧
    t.extUndoc = s.extUndoc ∧ t.fault = s.fault ∧ (ea ≠ none → t.a = s.a) := by
  rcases writeEa_eq_ok h with ⟨rfl, rfl⟩ | ⟨a, rfl, hw⟩
  · exact ⟨rfl, rfl, rfl, rfl, rfl, rfl, rfl, rfl, rfl, fun h => absurd rfl h⟩
  · obtain ⟨h1, h2, h3, h4, h5, h6, h7, h8, h9, h10⟩ := State.write_fields hw
    exact ⟨h6, h1, h3, h4, h5, h8, h7, h9, h10, fun _ => h2⟩

/-! ### Loads, stores, transfers -/

section
variable {o : Operand} {s t : State} {u : Unit}

theorem opLda_ok_iff : opLda o s = .ok u t ↔
    ∃ v, loadOperand o s = .ok v s ∧ (s.setA v).setP (putZS s.p v) = t := by
  simp [opLda, loadOperand_bind_ok_iff]

theorem opLdx_ok_iff : opLdx o s = .ok u t ↔
    ∃ v, loadOperand o s = .ok v s ∧ (s.setX v).setP (putZS s.p v) = t := by
  simp [opLdx, loadOperand_bind_ok_iff]

theorem opLdy_ok_iff : opLdy o s = .ok u t ↔
    ∃ v, loadOperand o s = .ok v s ∧ (s.setY v).setP (putZS s.p v) = t := by
  simp [opLdy, loadOperand_bind_ok_iff]

theorem opLax_ok_iff : opLax o s = .ok u t ↔
    ∃ v, loadOperand o s = .ok v s ∧ ((s.setA v).setX v).setP (putZS s.p v) = t := by
  simp [opLax, loadOperand_bind_ok_iff]

theorem opSta_ok_iff : opSta o s = .ok u t ↔ ∃ ea, resolve o s = .ok ea s ∧ writeEa ea s.a s = .ok u t := by
  simp [opSta, resolve_bind_ok_iff]

theorem opStx_ok_iff : opStx o s = .ok u t ↔ ∃ ea, resolve o s = .ok ea s ∧ writeEa ea s.x s = .ok u t := by
  simp [opStx, resolve_bind_ok_iff]

theorem opSty_ok_iff : opSty o s = .ok u t ↔ ∃ ea, resolve o s = .ok ea s ∧ writeEa ea s.y s = .ok u t := by
  simp [opSty, resolve_bind_ok_iff]

theorem opSax_ok_iff : opSax o s = .ok u t ↔
    ∃ ea, resolve o s = .ok ea s ∧ writeEa ea (s.a &&& s.x) s = .ok u t := by
  simp [opSax, resolve_bind_ok_iff]

@[simp] theorem opTax_apply : opTax s = .ok () ((s.setX s.a).setP (putZS s.p s.a)) := rfl
@[simp] theorem opTay_apply : opTay s = .ok () ((s.setY s.a).setP (putZS s.p s.a)) := rfl
@[simp] theorem opTxa_apply : opTxa s = .ok () ((s.setA s.x).setP (putZS s.p s.x)) := rfl
@[simp] theorem opTya_apply : opTya s = .ok () ((s.setA s.y).setP (putZS s.p s.y)) := rfl
@[simp] theorem opTsx_apply : opTsx s = .ok () ((s.setX s.sp).setP (putZS s.p s.sp)) := rfl
@[simp] theorem opTxs_apply : opTxs s = .ok () (s.setSp s.x) := rfl

/-! ### Arithmetic and logic -/

@[simp] theorem addToA_apply (m : Byte) (c : Bool) :
    addToA m c s = .ok () ((s.setA (addF s.a m c).r).setP (putArith s.p (addF s.a m c))) := rfl
@[simp] theorem subFromA_apply (m : Byte) (c : Bool) :
    subFromA m c s = .ok () ((s.setA (subF s.a m c).r).setP (putArith s.p (subF s.a m c))) := rfl
@[simp] theorem logicA_apply (f : Byte → Byte → LogicOut) (m : Byte) :
    logicA f m s = .ok () ((s.setA (f s.a m).r).setP (putLogic s.p (f s.a m))) := rfl
@[simp] theorem compareWith_apply (r m : Byte) :
    compareWith r m s = .ok () (s.setP (putCompare s.p (compareF r m))) := rfl

theorem opAdc_ok_iff : opAdc o s = .ok u t ↔ ∃ m, loadOperand o s = .ok m s ∧
    (s.setA (addF s.a m (s.flag .C)).r).setP (putArith s.p (addF s.a m (s.flag .C))) = t := by
  simp [opAdc, loadOperand_bind_ok_iff]

theorem opSbc_ok_iff : opSbc o s = .ok u t ↔ ∃ m, loadOperand o s = .ok m s ∧
    (s.setA (subF s.a m (s.flag .C)).r).setP (putArith s.p (subF s.a m (s.flag .C))) = t := by
  simp [opSbc, loadOperand_bind_ok_iff]

theorem opAnd_ok_iff : opAnd o s = .ok u t ↔ ∃ m, loadOperand o s = .ok m s ∧
    (s.setA (andF s.a m).r).setP (putLogic s.p (andF s.a m)) = t := by
  simp [opAnd, loadOperand_bind_ok_iff]

theorem opOra_ok_iff : opOra o s = .ok u t ↔ ∃ m, loadOperand o s = .ok m s ∧
    (s.setA (orF s.a m).r).setP (putLogic s.p (orF s.a m)) = t := by
  simp [opOra, loadOperand_bind_ok_iff]

theorem opEor_ok_iff : opEor o s = .ok u t ↔ ∃ m, loadOperand o s = .ok m s ∧
    (s.setA (xorF s.a m).r).setP (putLogic s.p (xorF s.a m)) = t := by
  simp [opEor, loadOperand_bind_ok_iff]

theorem opCmp_ok_iff : opCmp o s = .ok u t ↔ ∃ m, loadOperand o s = .ok m s ∧
    s.setP (putCompare s.p (compareF s.a m)) = t := by
  simp [opCmp, loadOperand_bind_ok_iff]

theorem opCpx_ok_iff : opCpx o s = .ok u t ↔ ∃ m, loadOperand o s = .ok m s ∧
    s.setP (putCompare s.p (compareF s.x m)) = t := by
  simp [opCpx, loadOperand_bind_ok_iff]

theorem opCpy_ok_iff : opCpy o s = .ok u t ↔ ∃ m, loadOperand o s = .ok m s ∧
    s.setP (putCompare s.p (compareF s.y m)) = t := by
  simp [opCpy, loadOperand_bind_ok_iff]

theorem opBit_ok_iff : opBit o s = .ok u t ↔ ∃ m, loadOperand o s = .ok m s ∧
    s.setP (putBit s.p (bitF s.a m)) = t := by
  simp [opBit, loadOperand_bind_ok_iff]

theorem stepMemory_ok_iff {f : Byte → LogicOut} : stepMemory f o s = .ok u t ↔
    ∃ ea m w, resolve o s = .ok ea s ∧ readEa ea s = .ok m s ∧ writeEa ea (f m).r s = .ok () w ∧
      w.setP (putLogic s.p (f m)) = t := by
  simp only [stepMemory, resolve_bind_ok_iff, readEa_bind_ok_iff, update_bind_apply, writeEa_setP]
  constructor
  · rintro ⟨ea, h1, m, h2, w, h3, h4⟩; exact ⟨ea, m, w, h1, h2, h3, h4⟩
  · rintro ⟨ea, m, w, h1, h2, h3, h4⟩; exact ⟨ea, h1, m, h2, w, h3, h4⟩

@[simp] theorem opInx_apply : opInx s = .ok () ((s.setX (s.x + 1)).setP (putLogic s.p (incF s.x))) := rfl
@[simp] theorem opIny_apply : opIny s = .ok () ((s.setY (s.y + 1)).setP (putLogic s.p (incF s.y))) := rfl
@[simp] theorem opDex_apply : opDex s = .ok () ((s.setX (s.x - 1)).setP (putLogic s.p (decF s.x))) := rfl
@[simp] theorem opDey_apply : opDey s = .ok () ((s.setY (s.y - 1)).setP (putLogic s.p (decF s.y))) := rfl

/-! ### Shifts and rotates -/

theorem shiftOperand_ok_iff {f : Byte → Bool → ShiftOut} : shiftOperand f o s = .ok u t ↔
    ∃ ea v w, resolve o s = .ok ea s ∧ readEa ea s = .ok v s ∧ writeEa ea (f v (s.flag .C)).r s = .ok () w ∧
      w.setP (putShift s.p (f v (s.flag .C))) = t := by
  simp only [shiftOperand, resolve_bind_ok_iff, readEa_bind_ok_iff, look_bind_apply, update_bind_apply, writeEa_setP]
  constructor
  · rintro ⟨ea, h1, m, h2, w, h3, h4⟩; exact ⟨ea, m, w, h1, h2, h3, h4⟩
  · rintro ⟨ea, m, w, h1, h2, h3, h4⟩; exact ⟨ea, h1, m, h2, w, h3, h4⟩

/-! ### Control flow -/

theorem jumpTo_ok_iff {ea : Option Word} : jumpTo ea s = .ok u t ↔ s.setPc (ea.getD s.pc) = t := by
  cases ea <;> simp [State.setPc]

theorem branchIf_ok_iff {f : Flag} {v : Bool} : branchIf f v o s = .ok u t ↔
    ∃ ea, resolve o s = .ok ea s ∧ s.setPc (if s.flag f = v then ea.getD s.pc else s.pc) = t := by
  simp only [branchIf, resolve_bind_ok_iff, look_bind_apply]
  constructor
  · rintro ⟨ea, h1, h2⟩
    refine ⟨ea, h1, ?_⟩
    split at h2
    · rw [if_pos (by assumption)]; exact jumpTo_ok_iff.mp h2
    · rw [if_neg (by assumption)]; cases h2; rfl
  · rintro ⟨ea, h1, h2⟩
    refine ⟨ea, h1, ?_⟩
    split at h2
    · rw [if_pos (by assumption)]; exact jumpTo_ok_iff.mpr h2
    · rw [if_neg (by assumption)]; cases h2; rfl

theorem opJmp_ok_iff : opJmp o s = .ok u t ↔ ∃ ea, resolve o s = .ok ea s ∧ s.setPc (ea.getD s.pc) = t := by
  simp only [opJmp, resolve_bind_ok_iff, jumpTo_ok_iff]

theorem push_ok_iff {v : Byte} : push v s = .ok u t ↔
    ∃ w, s.write (stackAddr s.sp) v = some w ∧ w.setSp (s.sp - 1) = t :=
  ⟨fun h => (push_eq_ok h).imp fun _ h => ⟨h.1, h.2.symm⟩, fun ⟨_, h, e⟩ => e ▸ push_of_write h⟩

theorem pop_ok_iff {v : Byte} : pop s = .ok v t ↔
    s.read (stackAddr (s.sp + 1)) = some v ∧ s.setSp (s.sp + 1) = t :=
  ⟨fun h => ⟨(pop_eq_ok h).1, (pop_eq_ok h).2.symm⟩, fun ⟨h, e⟩ => e ▸ pop_of_read h⟩

theorem popWord_ok_iff {w : Word} : popWord s = .ok w t ↔
    ∃ lo hi, s.read (stackAddr (s.sp + 1)) = some lo ∧ s.read (stackAddr (s.sp + 1 + 1)) = some hi ∧
      wordOf hi lo = w ∧ s.setSp (s.sp + 1 + 1) = t := by
  constructor
  · intro h
    obtain ⟨lo, hi, h1, h2, rfl, rfl⟩ := popWord_eq_ok h
    exact ⟨lo, hi, h1, h2, rfl, rfl⟩
  · rintro ⟨lo, hi, h1, h2, rfl, rfl⟩
    exact popWord_of_read h1 h2

theorem pushWord_ok_iff {w : Word} : pushWord w s = .ok u t ↔
    ∃ s1 s2, s.write (stackAddr s.sp) (hiByte w) = some s1 ∧
      s1.write (stackAddr (s.sp - 1)) (loByte w) = some s2 ∧ s2.setSp (s.sp - 1 - 1) = t := by
  have bridge : ∀ s1 : State, s1.sp = s.sp → (push (loByte w) (s1.setSp (s.sp - 1)) = .ok u t ↔
      ∃ s2, s1.write (stackAddr (s.sp - 1)) (loByte w) = some s2 ∧ s2.setSp (s.sp - 1 - 1) = t) := by
    intro s1 _
    rw [push_ok_iff]
    simp only [State.setSp_sp, State.write_setSp, Option.map_eq_some_iff]
    constructor
    · rintro ⟨_, ⟨s2, h, rfl⟩, rfl⟩; exact ⟨s2, h, rfl⟩
    · rintro ⟨s2, h, rfl⟩; exact ⟨_, ⟨s2, h, rfl⟩, rfl⟩
  rw [pushWord, M.bind_ok_iff]
  constructor
  · rintro ⟨_, m, h1, h2⟩
    obtain ⟨s1, hw, rfl⟩ := push_ok_iff.mp h1
    obtain ⟨s2, h3, h4⟩ := (bridge s1 (State.write_fields hw).2.2.2.2.1).mp h2
    exact ⟨s1, s2, hw, h3, h4⟩
  · rintro ⟨s1, s2, hw, h3, h4⟩
    exact ⟨(), _, push_ok_iff.mpr ⟨s1, hw, rfl⟩, (bridge s1 (State.write_fields hw).2.2.2.2.1).mpr ⟨s2, h3, h4⟩⟩

theorem opJsr_ok_iff : opJsr o s = .ok u t ↔ ∃ ea w, resolve o s = .ok ea s ∧
    pushWord (s.pc - 1) s = .ok () w ∧ w.setPc (ea.getD w.pc) = t := by
  simp only [opJsr, resolve_bind_ok_iff, look_bind_apply]
  simp only [M.bind_ok_iff, jumpTo_ok_iff]
  constructor
  · rintro ⟨ea, h1, _, w, h2, h3⟩; exact ⟨ea, w, h1, h2, h3⟩
  · rintro ⟨ea, w, h1, h2, h3⟩; exact ⟨ea, h1, (), w, h2, h3⟩

theorem opRts_ok_iff : opRts s = .ok u t ↔ ∃ w r, popWord s = .ok w r ∧ r.setPc (w + 1) = t := by
  simp [opRts, M.bind_ok_iff]

theorem opBrk_ok_iff : opBrk s = .ok u t ↔ ∃ w, enterVector (s.pc + 1) Config.vecIrq s = .ok w t := by
  constructor <;> intro h
  · exact ⟨u, h⟩
  · exact h.elim fun _ h => h

/-- What taking an exception does: two bytes of return address and one of status pushed, I set, PC at the vector's
word (R278). -/
theorem enterVector_ok_iff {ret vec : Word} : enterVector ret vec s = .ok u t ↔
    ∃ s1 s2 s3 lo hi, s.write (stackAddr s.sp) (hiByte ret) = some s1 ∧
      s1.write (stackAddr (s.sp - 1)) (loByte ret) = some s2 ∧
      s2.write (stackAddr (s.sp - 1 - 1)) (pushImage s.p) = some s3 ∧
      s3.read vec = some lo ∧ s3.read (vec + 1) = some hi ∧
      ((s3.setSp (s.sp - 1 - 1 - 1)).setP (putFlag s.p .I true)).setPc (wordOf hi lo) = t := by
  simp only [enterVector, M.bind_ok_iff, look_bind_apply, setFlag_apply]
  constructor
  · rintro ⟨_, m, h1, _, m2, h2, _, m3, h3, w, m4, h4, h5⟩
    obtain ⟨s1, s2, hw1, hw2, rfl⟩ := pushWord_ok_iff.mp h1
    obtain ⟨s3, hw3, rfl⟩ := push_ok_iff.mp h2
    cases h3
    obtain ⟨rfl, lo, hi, hl, hh, rfl⟩ := memRead16_eq_ok h4
    cases h5
    rw [State.write_setSp, Option.map_eq_some_iff] at hw3
    obtain ⟨s3', hw3, rfl⟩ := hw3
    have hp : s2.p = s.p := (State.write_fields hw2).2.2.2.2.2.1.trans (State.write_fields hw1).2.2.2.2.2.1
    have hp3 : s3'.p = s.p := (State.write_fields hw3).2.2.2.2.2.1.trans hp
    refine ⟨s1, s2, s3', lo, hi, hw1, hw2, by simpa [hp] using hw3, hl, hh, ?_⟩
    simp [hp3, State.setSp, State.setP, State.setPc]
  · rintro ⟨s1, s2, s3, lo, hi, hw1, hw2, hw3, hl, hh, rfl⟩
    have hp : s2.p = s.p := (State.write_fields hw2).2.2.2.2.2.1.trans (State.write_fields hw1).2.2.2.2.2.1
    have hp3 : s3.p = s.p := (State.write_fields hw3).2.2.2.2.2.1.trans hp
    refine ⟨(), _, pushWord_ok_iff.mpr ⟨s1, s2, hw1, hw2, rfl⟩, (), _, push_ok_iff.mpr ⟨s3.setSp (s.sp - 1 - 1), ?_, rfl⟩,
      (), _, rfl, wordOf hi lo, _, memRead16_of_some hl hh, ?_⟩
    · rw [State.write_setSp, Option.map_eq_some_iff]
      exact ⟨s3, by simpa [hp] using hw3, rfl⟩
    · simp [hp3, State.setSp, State.setP, State.setPc]

/-- What the return from an exception does: the status byte is pulled, then PC (R279). -/
theorem returnFromVector_ok_iff : returnFromVector s = .ok u t ↔
    ∃ v lo hi, s.read (stackAddr (s.sp + 1)) = some v ∧ s.read (stackAddr (s.sp + 1 + 1)) = some lo ∧
      s.read (stackAddr (s.sp + 1 + 1 + 1)) = some hi ∧
      ((s.setSp (s.sp + 1 + 1 + 1)).setP (pullImage v)).setPc (wordOf hi lo) = t := by
  simp only [returnFromVector, M.bind_ok_iff, update_apply]
  constructor
  · rintro ⟨v, m, h1, _, m2, h2, w, m3, h3, h4⟩
    obtain ⟨hv, rfl⟩ := pop_ok_iff.mp h1
    cases h2
    obtain ⟨lo, hi, hl, hh, rfl, rfl⟩ := popWord_ok_iff.mp h3
    cases h4
    exact ⟨v, lo, hi, hv, hl, hh, rfl⟩
  · rintro ⟨v, lo, hi, hv, hl, hh, rfl⟩
    exact ⟨v, _, pop_ok_iff.mpr ⟨hv, rfl⟩, (), _, rfl, _, _, popWord_ok_iff.mpr ⟨lo, hi, hl, hh, rfl, rfl⟩, rfl⟩

/-! ### Stack, NOP -/

theorem opPha_ok_iff : opPha s = .ok u t ↔ push s.a s = .ok u t := Iff.rfl

theorem opPhp_ok_iff : opPhp s = .ok u t ↔ push (pushImage s.p) s = .ok u t := Iff.rfl

theorem opPla_ok_iff : opPla s = .ok u t ↔ ∃ v, s.read (stackAddr (s.sp + 1)) = some v ∧
    ((s.setSp (s.sp + 1)).setA v).setP (putZS s.p v) = t := by
  simp only [opPla, M.bind_ok_iff, pop_ok_iff]
  constructor
  · rintro ⟨v, _, ⟨h, rfl⟩, _, _, h2, h3⟩; cases h2; cases h3; exact ⟨v, h, rfl⟩
  · rintro ⟨v, h, rfl⟩; exact ⟨v, _, ⟨h, rfl⟩, (), _, rfl, rfl⟩

theorem opPlp_ok_iff : opPlp s = .ok u t ↔ ∃ v, s.read (stackAddr (s.sp + 1)) = some v ∧
    (s.setSp (s.sp + 1)).setP (pullImage v) = t := by
  simp only [opPlp, M.bind_ok_iff, pop_ok_iff]
  constructor
  · rintro ⟨v, _, ⟨h, rfl⟩, h2⟩; cases h2; exact ⟨v, h, rfl⟩
  · rintro ⟨v, h, rfl⟩; exact ⟨v, _, ⟨h, rfl⟩, rfl⟩

theorem opNop_ok_iff : opNop o s = .ok u t ↔ (∃ ea, resolve o s = .ok ea s) ∧ s = t := by
  constructor
  · intro h
    obtain ⟨ea, h1, h2⟩ := (resolve_bind_ok_iff (f := fun _ => pure ())).mp h
    cases h2
    exact ⟨⟨ea, h1⟩, rfl⟩
  · rintro ⟨⟨ea, h1⟩, rfl⟩
    exact (resolve_bind_ok_iff (f := fun _ => pure ())).mpr ⟨ea, h1, rfl⟩

/-! ### Undocumented read-modify-write instructions -/

theorem opSlo_ok_iff : opSlo o s = .ok u t ↔
    ∃ ea m w, resolve o s = .ok ea s ∧ readEa ea s = .ok m s ∧ writeEa ea (aslF m).r s = .ok () w ∧
      (w.setA (orF w.a (aslF m).r).r).setP (putLogic (putFlag s.p .C (aslF m).c) (orF w.a (aslF m).r)) = t := by
  simp only [opSlo, resolve_bind_ok_iff, readEa_bind_ok_iff]
  simp only [M.bind_ok_iff, setFlag_apply]
  constructor
  · rintro ⟨ea, h1, m, h2, _, _, h3, _, _, h4, h5⟩
    cases h3
    obtain ⟨w, hw, rfl⟩ := writeEa_setP.mp h4
    cases h5
    exact ⟨ea, m, w, h1, h2, hw, rfl⟩
  · rintro ⟨ea, m, w, h1, h2, hw, rfl⟩
    exact ⟨ea, h1, m, h2, (), _, rfl, (), _, writeEa_setP.mpr ⟨w, hw, rfl⟩, rfl⟩

theorem opRla_ok_iff : opRla o s = .ok u t ↔
    ∃ ea m w, resolve o s = .ok ea s ∧ readEa ea s = .ok m s ∧ writeEa ea (rolF m (s.flag .C)).r s = .ok () w ∧
      (w.setA (andF w.a (rolF m (s.flag .C)).r).r).setP
        (putLogic (putFlag s.p .C (rolF m (s.flag .C)).c) (andF w.a (rolF m (s.flag .C)).r)) = t := by
  simp only [opRla, resolve_bind_ok_iff, readEa_bind_ok_iff, look_bind_apply]
  simp only [M.bind_ok_iff, setFlag_apply]
  constructor
  · rintro ⟨ea, h1, m, h2, _, _, h3, _, _, h4, h5⟩
    cases h3
    obtain ⟨w, hw, rfl⟩ := writeEa_setP.mp h4
    cases h5
    exact ⟨ea, m, w, h1, h2, hw, rfl⟩
  · rintro ⟨ea, m, w, h1, h2, hw, rfl⟩
    exact ⟨ea, h1, m, h2, (), _, rfl, (), _, writeEa_setP.mpr ⟨w, hw, rfl⟩, rfl⟩

theorem opSre_ok_iff : opSre o s = .ok u t ↔
    ∃ ea m w, resolve o s = .ok ea s ∧ readEa ea s = .ok m s ∧ writeEa ea (lsrF m).r s = .ok () w ∧
      (w.setA (xorF w.a (lsrF m).r).r).setP (putLogic (putFlag s.p .C (lsrF m).c) (xorF w.a (lsrF m).r)) = t := by
  simp only [opSre, resolve_bind_ok_iff, readEa_bind_ok_iff]
  simp only [M.bind_ok_iff, setFlag_apply]
  constructor
  · rintro ⟨ea, h1, m, h2, _, _, h3, _, _, h4, h5⟩
    cases h3
    obtain ⟨w, hw, rfl⟩ := writeEa_setP.mp h4
    cases h5
    exact ⟨ea, m, w, h1, h2, hw, rfl⟩
  · rintro ⟨ea, m, w, h1, h2, hw, rfl⟩
    exact ⟨ea, h1, m, h2, (), _, rfl, (), _, writeEa_setP.mpr ⟨w, hw, rfl⟩, rfl⟩

theorem opRra_ok_iff : opRra o s = .ok u t ↔
    ∃ ea m w, resolve o s = .ok ea s ∧ readEa ea s = .ok m s ∧ writeEa ea (rorF m (s.flag .C)).r s = .ok () w ∧
      (w.setA (addF w.a (rorF m (s.flag .C)).r (rorF m (s.flag .C)).c).r).setP
        (putArith w.p (addF w.a (rorF m (s.flag .C)).r (rorF m (s.flag .C)).c)) = t := by
  simp only [opRra, resolve_bind_ok_iff, readEa_bind_ok_iff, look_bind_apply]
  simp only [M.bind_ok_iff]
  constructor
  · rintro ⟨ea, h1, m, h2, _, w, hw, h5⟩
    cases h5
    exact ⟨ea, m, w, h1, h2, hw, rfl⟩
  · rintro ⟨ea, m, w, h1, h2, hw, rfl⟩
    exact ⟨ea, h1, m, h2, (), _, hw, rfl⟩

theorem opDcp_ok_iff : opDcp o s = .ok u t ↔
    ∃ ea m w, resolve o s = .ok ea s ∧ readEa ea s = .ok m s ∧ writeEa ea (m - 1) s = .ok () w ∧
      w.setP (putCompare w.p (compareF w.a (m - 1))) = t := by
  simp only [opDcp, resolve_bind_ok_iff, readEa_bind_ok_iff]
  simp only [M.bind_ok_iff]
  constructor
  · rintro ⟨ea, h1, m, h2, _, w, hw, _, _, h4, h5⟩
    cases h4
    cases h5
    exact ⟨ea, m, w, h1, h2, hw, rfl⟩
  · rintro ⟨ea, m, w, h1, h2, hw, rfl⟩
    exact ⟨ea, h1, m, h2, (), _, hw, _, _, rfl, rfl⟩

theorem opIsb_ok_iff : opIsb o s = .ok u t ↔
    ∃ ea m w, resolve o s = .ok ea s ∧ readEa ea s = .ok m s ∧ writeEa ea (m + 1) s = .ok () w ∧
      (w.setA (subF w.a (m + 1) (w.flag .C)).r).setP (putArith w.p (subF w.a (m + 1) (w.flag .C))) = t := by
  simp only [opIsb, resolve_bind_ok_iff, readEa_bind_ok_iff]
  simp only [M.bind_ok_iff]
  constructor
  · rintro ⟨ea, h1, m, h2, _, w, hw, _, _, h4, h5⟩
    cases h4
    cases h5
    exact ⟨ea, m, w, h1, h2, hw, rfl⟩
  · rintro ⟨ea, m, w, h1, h2, hw, rfl⟩
    exact ⟨ea, h1, m, h2, (), _, hw, _, _, rfl, rfl⟩

end

end Sys2Proof.Machine
end

