-- ==== Sys2Proof/Laws/Respects.lean ====
section
/-! SUPPORT. What a statement sequence does to the state as a whole, said as a relation: `Respects R m` says that `m`,
when it runs to its end, leads from a state to one it is related to. One lemma per shared operation, so a frame
(`R s t` is `f t = f s`) or an invariant (`R s t` is `I s → I t`) of every instruction is read off the parts. -/

namespace Sys2Proof.Machine

section
variable {α β : Type} {R : State → State → Prop}

/-- `m` leads from a state to a related one whenever it runs to its end. -/
def Respects (R : State → State → Prop) (m : M α) : Prop := ∀ s v t, m s = .ok v t → R s t

/-- `R` relates each state to itself, and relates along chains. -/
structure StatePreorder (R : State → State → Prop) : Prop where
  refl : ∀ s, R s s
  trans : ∀ {s t u}, R s t → R t u → R s u

/-- Leaving an observation as it was. -/
theorem StatePreorder.keeps {γ : Type} (f : State → γ) : StatePreorder fun s t => f t = f s :=
  ⟨fun _ => rfl, fun h1 h2 => h2.trans h1⟩

/-- Preserving a predicate. -/
theorem StatePreorder.preserves (I : State → Prop) : StatePreorder fun s t => I s → I t :=
  ⟨fun _ h => h, fun h1 h2 h => h2 (h1 h)⟩

theorem Respects.pure (hR : StatePreorder R) (a : α) : Respects R (Pure.pure a : M α) :=
  fun s _ _ h => by cases h; exact hR.refl s

theorem Respects.look (hR : StatePreorder R) (g : State → α) : Respects R (Machine.look g) :=
  fun s _ _ h => by cases h; exact hR.refl s

theorem Respects.raise (r : FaultRecord) : Respects R (Machine.raise r : M α) := fun _ _ _ h => by cases h

theorem Respects.update {g : State → State} (h : ∀ s, R s (g s)) : Respects R (Machine.update g) :=
  fun s _ _ e => by cases e; exact h s

theorem Respects.bind (hR : StatePreorder R) {m : M α} {k : α → M β} (hm : Respects R m) (hk : ∀ a, Respects R (k a)) :
    Respects R (m >>= k) := fun s v t h => by
  obtain ⟨a, u, h1, h2⟩ := M.bind_eq_ok h
  exact hR.trans (hm s a u h1) (hk a u v t h2)

theorem Respects.memRead (hR : StatePreorder R) (a : Word) : Respects R (Machine.memRead a) :=
  fun s _ _ h => (memRead_eq_ok h).1 ▸ hR.refl s

theorem Respects.memRead16 (hR : StatePreorder R) (a b : Word) : Respects R (Machine.memRead16 a b) :=
  fun s _ _ h => (memRead16_eq_ok h).1 ▸ hR.refl s

theorem Respects.resolve (hR : StatePreorder R) (o : Operand) : Respects R (Machine.resolve o) :=
  fun s _ _ h => resolve_state h ▸ hR.refl s

theorem Respects.readEa (hR : StatePreorder R) (ea : Option Word) : Respects R (Machine.readEa ea) :=
  fun s _ _ h => readEa_state h ▸ hR.refl s

theorem Respects.loadOperand (hR : StatePreorder R) (o : Operand) : Respects R (Machine.loadOperand o) :=
  fun s _ _ h => loadOperand_state h ▸ hR.refl s

theorem Respects.memWrite (hw : ∀ s a v t, State.write s a v = some t → R s t) (a : Word) (v : Byte) :
    Respects R (Machine.memWrite a v) := fun s _ t h => hw s a v t (memWrite_eq_ok h)

theorem Respects.writeEa (hw : ∀ s a v t, State.write s a v = some t → R s t) (ha : ∀ s v, R s (State.setA s v))
    (ea : Option Word) (v : Byte) : Respects R (Machine.writeEa ea v) := by
  cases ea with
  | none => exact Respects.update fun s => ha s v
  | some a => exact Respects.memWrite hw a v

theorem Respects.jumpTo (hR : StatePreorder R) (hp : ∀ s v, R s (State.setPc s v)) (ea : Option Word) :
    Respects R (Machine.jumpTo ea) := by
  cases ea with
  | none => exact Respects.pure hR ()
  | some a => exact Respects.update fun s => hp s a

theorem Respects.push (hR : StatePreorder R) (hw : ∀ s a v t, State.write s a v = some t → R s t)
    (hs : ∀ s v, R s (State.setSp s v)) (v : Byte) : Respects R (Machine.push v) :=
  Respects.bind hR (Respects.look hR _) fun _ => Respects.bind hR (Respects.memWrite hw _ _) fun _ =>
    Respects.update fun s => hs s _

theorem Respects.pushWord (hR : StatePreorder R) (hw : ∀ s a v t, State.write s a v = some t → R s t)
    (hs : ∀ s v, R s (State.setSp s v)) (w : Word) : Respects R (Machine.pushWord w) :=
  Respects.bind hR (Respects.push hR hw hs _) fun _ => Respects.push hR hw hs _

theorem Respects.pop (hR : StatePreorder R) (hs : ∀ s v, R s (State.setSp s v)) : Respects R Machine.pop :=
  Respects.bind hR (Respects.update fun s => hs s _) fun _ => Respects.bind hR (Respects.look hR _) fun _ =>
    Respects.memRead hR _

theorem Respects.popWord (hR : StatePreorder R) (hs : ∀ s v, R s (State.setSp s v)) : Respects R Machine.popWord :=
  Respects.bind hR (Respects.pop hR hs) fun _ => Respects.bind hR (Respects.pop hR hs) fun _ => Respects.pure hR _

theorem Respects.fetch8 (hR : StatePreorder R) (hp : ∀ s v, R s (State.setPc s v)) : Respects R Machine.fetch8 :=
  Respects.bind hR (Respects.look hR _) fun _ => Respects.bind hR (Respects.memRead hR _) fun _ =>
    Respects.bind hR (Respects.update fun s => hp s _) fun _ => Respects.pure hR _

/-! ### Every instruction, and every step -/

/-- Every operation respects a relation that the arbiter's store and every register update respect. -/
theorem handler_respects (hR : StatePreorder R) (hw : ∀ s a v t, State.write s a v = some t → R s t)
    (ha : ∀ s v, R s (State.setA s v)) (hx : ∀ s v, R s (State.setX s v)) (hy : ∀ s v, R s (State.setY s v))
    (hs : ∀ s v, R s (State.setSp s v)) (hp : ∀ s v, R s (State.setPc s v)) (hf : ∀ s v, R s (State.setP s v))
    (m : Mnemonic) (o : Operand) : Respects R (handler m o) := by
  have hap : ∀ (s : State) v w, R s ((s.setA v).setP w) := fun s v w => hR.trans (ha s v) (hf _ w)
  have hxp : ∀ (s : State) v w, R s ((s.setX v).setP w) := fun s v w => hR.trans (hx s v) (hf _ w)
  have hyp : ∀ (s : State) v w, R s ((s.setY v).setP w) := fun s v w => hR.trans (hy s v) (hf _ w)
  cases m <;> simp only [handler] <;> first
    | unfold opLda | unfold opLdx | unfold opLdy | unfold opLax | unfold opSta | unfold opStx | unfold opSty
    | unfold opSax | unfold opTax | unfold opTay | unfold opTxa | unfold opTya | unfold opTsx | unfold opTxs
    | unfold opAdc | unfold opSbc | unfold opAnd | unfold opOra | unfold opEor | unfold opCmp | unfold opCpx
    | unfold opCpy | unfold opBit | unfold opInc stepMemory | unfold opDec stepMemory | unfold opInx | unfold opIny
    | unfold opDex | unfold opDey | unfold opAsl shiftOperand | unfold opLsr shiftOperand
    | unfold opRol shiftOperand | unfold opRor shiftOperand | unfold branchIf | unfold opJmp | unfold opJsr
    | unfold opRts | unfold opBrk enterVector | unfold opRti returnFromVector | unfold opPha | unfold opPla
    | unfold opPhp | unfold opPlp | unfold opNop | unfold opSlo | unfold opRla | unfold opSre | unfold opRra
    | unfold opDcp | unfold opIsb | skip
  all_goals repeat' first
    | with_reducible exact Respects.pure hR _ | with_reducible exact Respects.look hR _
    | with_reducible exact Respects.resolve hR _ | with_reducible exact Respects.readEa hR _
    | with_reducible exact Respects.loadOperand hR _ | with_reducible exact Respects.memRead16 hR _ _
    | with_reducible exact Respects.writeEa hw ha _ _ | with_reducible exact Respects.jumpTo hR hp _
    | with_reducible exact Respects.push hR hw hs _ | with_reducible exact Respects.pushWord hR hw hs _
    | with_reducible exact Respects.pop hR hs | with_reducible exact Respects.popWord hR hs
    | exact Respects.update fun s => ha s _ | exact Respects.update fun s => hx s _
    | exact Respects.update fun s => hy s _ | exact Respects.update fun s => hs s _
    | exact Respects.update fun s => hp s _ | exact Respects.update fun s => hf s _
    | exact Respects.update fun s => hap s _ _ | exact Respects.update fun s => hxp s _ _
    | exact Respects.update fun s => hyp s _ _
    | with_reducible refine Respects.bind hR ?_ fun _ => ?_
    | split

/-- What `exec` needs of a relation: that the operation of the instruction respects it. -/
theorem exec_respects {i : Instr} {s t : State} (h : exec i s = .next t)
    (hk : Respects R (handler i.mnemonic i.operand)) : R s t := hk s () t (handler_of_exec_next h)

theorem fetchOperand_respects (hR : StatePreorder R) (hp : ∀ s v, R s (State.setPc s v)) (row : OpcodeRow) :
    Respects R (fetchOperand row) := by
  unfold fetchOperand
  split
  · exact Respects.pure hR _
  · split
    · refine Respects.bind hR (Respects.bind hR (Respects.look hR _) fun ea =>
        Respects.bind hR (Respects.update fun s => hp s _) fun _ => ?_) fun _ => Respects.pure hR _
      split
      · exact Respects.look hR _
      · exact Respects.memRead hR _
    · exact Respects.bind hR (Respects.fetch8 hR hp) fun _ => Respects.pure hR _
  · exact Respects.bind hR (Respects.fetch8 hR hp) fun _ => Respects.bind hR (Respects.fetch8 hR hp) fun _ =>
      Respects.pure hR _

theorem fetchInstr_respects (hR : StatePreorder R) (hp : ∀ s v, R s (State.setPc s v)) : Respects R fetchInstr := by
  refine Respects.bind hR (Respects.look hR _) fun pc0 => Respects.bind hR (Respects.fetch8 hR hp) fun op =>
    Respects.bind hR (Respects.look hR _) fun e => ?_
  split
  · exact Respects.raise _
  · exact fetchOperand_respects hR hp _

end

/-- A fetch leaves the state as it was but for PC. -/
theorem fetchInstr_eq_ok {s t : State} {i : Instr} (h : fetchInstr s = .ok i t) : t = s.setPc t.pc := by
  have hpc : t.setPc 0 = s.setPc 0 :=
    fetchInstr_respects (StatePreorder.keeps fun s => s.setPc 0) (fun _ _ => rfl) s i t h
  calc t = (t.setPc 0).setPc t.pc := rfl
    _ = (s.setPc 0).setPc t.pc := by rw [hpc]
    _ = s.setPc t.pc := rfl

/-- What a step that completes did: it fetched an instruction, executed it, and kept the Reserved bit 1 (R307). -/
theorem step_eq_next {s u : State} (h : step s = .next u) :
    s.fault = none ∧ ∃ i pc t, fetchInstr s = .ok i (s.setPc pc) ∧ exec i (s.setPc pc) = .next t ∧
      u = t.keepReserved := by
  unfold step at h
  split at h
  · cases h
  · split at h
    · cases h
    · rename_i i t hf
      split at h <;> cases h
      rename_i v hx
      have ht := fetchInstr_eq_ok hf
      exact ⟨by assumption, i, t.pc, v, ht ▸ hf, ht ▸ hx, rfl⟩

/-- A step respects a relation that the arbiter's store and every register update respect. -/
theorem step_respects {R : State → State → Prop} (hR : StatePreorder R)
    (hw : ∀ s a v t, State.write s a v = some t → R s t)
    (ha : ∀ s v, R s (State.setA s v)) (hx : ∀ s v, R s (State.setX s v)) (hy : ∀ s v, R s (State.setY s v))
    (hs : ∀ s v, R s (State.setSp s v)) (hp : ∀ s v, R s (State.setPc s v)) (hf : ∀ s v, R s (State.setP s v))
    {s u : State} (h : step s = .next u) : R s u := by
  obtain ⟨-, i, pc, t, -, hex, rfl⟩ := step_eq_next h
  exact hR.trans (hp s pc) (hR.trans (exec_respects hex (handler_respects hR hw ha hx hy hs hp hf _ _)) (hf t _))

end Sys2Proof.Machine
end

