-- ==== Sys2Proof/Laws/Table.lean ====
section
/-! SUPPORT. The opcode table read the other way: whatever an entry completes to is an instruction whose opcode is the
entry's place, with the entry's mnemonic, mode and optional mark, and with the bytes it was completed from. -/

namespace Sys2Proof

/-- What an entry at opcode `n` promises of the instruction `i` it completes to from the operand bytes `bytes`. -/
def OpcodeRow.Names (row : OpcodeRow) (n : Nat) (i : Instr) (bytes : List Byte) : Prop :=
  i.opcode.toNat = n ∧ i.operand.bytes = bytes ∧ i.mnemonic = row.mnemonic ∧ i.operand.mode = row.mode ∧
  i.optional = row.optional

/-- What an entry at opcode `n` promises, for its format. -/
def OpcodeRow.Sound (n : Nat) (row : OpcodeRow) : Prop :=
  match row.build with
  | .alone i => row.Names n i []
  | .byte f => ∀ b, row.Names n (f b) [b]
  | .word f => ∀ w, row.Names n (f w) [loByte w, hiByte w]

/-- Every entry of a list keeps its promise, the first at opcode `n`. -/
def TableSound : Nat → List (Option OpcodeRow) → Prop
  | _, [] => True
  | n, none :: rest => TableSound (n + 1) rest
  | n, some row :: rest => row.Sound n ∧ TableSound (n + 1) rest

theorem TableSound.append {n : Nat} {r r' : List (Option OpcodeRow)} (h : TableSound n r)
    (h' : TableSound (n + r.length) r') : TableSound n (r ++ r') := by
  induction r generalizing n with
  | nil => exact h'
  | cons e rest ih =>
    have hn : n + 1 + rest.length = n + (e :: rest).length := by simp only [List.length_cons]; omega
    cases e with
    | none => exact ih h (by rw [hn]; exact h')
    | some row => exact ⟨h.1, ih h.2 (by rw [hn]; exact h')⟩

theorem TableSound.entry {n : Nat} {r : List (Option OpcodeRow)} (h : TableSound n r) {k : Nat} {row : OpcodeRow}
    (hk : r[k]? = some (some row)) : row.Sound (n + k) := by
  induction r generalizing n k with
  | nil => simp at hk
  | cons e rest ih =>
    cases k with
    | zero =>
      simp only [List.getElem?_cons_zero, Option.some.injEq] at hk
      subst hk
      exact h.1
    | succ k =>
      simp only [List.getElem?_cons_succ] at hk
      have hn : n + 1 + k = n + (k + 1) := by omega
      cases e with
      | none => exact hn ▸ ih h hk
      | some row' => exact hn ▸ ih h.2 hk

theorem opcodeRow0_sound : TableSound 0 opcodeRow0 := by
  simp only [opcodeRow0, TableSound, OpcodeRow.Sound]
  repeat' first
    | exact trivial | exact ⟨rfl, rfl, rfl, rfl, rfl⟩ | exact fun _ => ⟨rfl, rfl, rfl, rfl, rfl⟩ | apply And.intro

theorem opcodeRow1_sound : TableSound 16 opcodeRow1 := by
  simp only [opcodeRow1, TableSound, OpcodeRow.Sound]
  repeat' first
    | exact trivial | exact ⟨rfl, rfl, rfl, rfl, rfl⟩ | exact fun _ => ⟨rfl, rfl, rfl, rfl, rfl⟩ | apply And.intro

theorem opcodeRow2_sound : TableSound 32 opcodeRow2 := by
  simp only [opcodeRow2, TableSound, OpcodeRow.Sound]
  repeat' first
    | exact trivial | exact ⟨rfl, rfl, rfl, rfl, rfl⟩ | exact fun _ => ⟨rfl, rfl, rfl, rfl, rfl⟩ | apply And.intro

theorem opcodeRow3_sound : TableSound 48 opcodeRow3 := by
  simp only [opcodeRow3, TableSound, OpcodeRow.Sound]
  repeat' first
    | exact trivial | exact ⟨rfl, rfl, rfl, rfl, rfl⟩ | exact fun _ => ⟨rfl, rfl, rfl, rfl, rfl⟩ | apply And.intro

theorem opcodeRow4_sound : TableSound 64 opcodeRow4 := by
  simp only [opcodeRow4, TableSound, OpcodeRow.Sound]
  repeat' first
    | exact trivial | exact ⟨rfl, rfl, rfl, rfl, rfl⟩ | exact fun _ => ⟨rfl, rfl, rfl, rfl, rfl⟩ | apply And.intro

theorem opcodeRow5_sound : TableSound 80 opcodeRow5 := by
  simp only [opcodeRow5, TableSound, OpcodeRow.Sound]
  repeat' first
    | exact trivial | exact ⟨rfl, rfl, rfl, rfl, rfl⟩ | exact fun _ => ⟨rfl, rfl, rfl, rfl, rfl⟩ | apply And.intro

theorem opcodeRow6_sound : TableSound 96 opcodeRow6 := by
  simp only [opcodeRow6, TableSound, OpcodeRow.Sound]
  repeat' first
    | exact trivial | exact ⟨rfl, rfl, rfl, rfl, rfl⟩ | exact fun _ => ⟨rfl, rfl, rfl, rfl, rfl⟩ | apply And.intro

theorem opcodeRow7_sound : TableSound 112 opcodeRow7 := by
  simp only [opcodeRow7, TableSound, OpcodeRow.Sound]
  repeat' first
    | exact trivial | exact ⟨rfl, rfl, rfl, rfl, rfl⟩ | exact fun _ => ⟨rfl, rfl, rfl, rfl, rfl⟩ | apply And.intro

theorem opcodeRow8_sound : TableSound 128 opcodeRow8 := by
  simp only [opcodeRow8, TableSound, OpcodeRow.Sound]
  repeat' first
    | exact trivial | exact ⟨rfl, rfl, rfl, rfl, rfl⟩ | exact fun _ => ⟨rfl, rfl, rfl, rfl, rfl⟩ | apply And.intro

theorem opcodeRow9_sound : TableSound 144 opcodeRow9 := by
  simp only [opcodeRow9, TableSound, OpcodeRow.Sound]
  repeat' first
    | exact trivial | exact ⟨rfl, rfl, rfl, rfl, rfl⟩ | exact fun _ => ⟨rfl, rfl, rfl, rfl, rfl⟩ | apply And.intro

theorem opcodeRowA_sound : TableSound 160 opcodeRowA := by
  simp only [opcodeRowA, TableSound, OpcodeRow.Sound]
  repeat' first
    | exact trivial | exact ⟨rfl, rfl, rfl, rfl, rfl⟩ | exact fun _ => ⟨rfl, rfl, rfl, rfl, rfl⟩ | apply And.intro

theorem opcodeRowB_sound : TableSound 176 opcodeRowB := by
  simp only [opcodeRowB, TableSound, OpcodeRow.Sound]
  repeat' first
    | exact trivial | exact ⟨rfl, rfl, rfl, rfl, rfl⟩ | exact fun _ => ⟨rfl, rfl, rfl, rfl, rfl⟩ | apply And.intro

theorem opcodeRowC_sound : TableSound 192 opcodeRowC := by
  simp only [opcodeRowC, TableSound, OpcodeRow.Sound]
  repeat' first
    | exact trivial | exact ⟨rfl, rfl, rfl, rfl, rfl⟩ | exact fun _ => ⟨rfl, rfl, rfl, rfl, rfl⟩ | apply And.intro

theorem opcodeRowD_sound : TableSound 208 opcodeRowD := by
  simp only [opcodeRowD, TableSound, OpcodeRow.Sound]
  repeat' first
    | exact trivial | exact ⟨rfl, rfl, rfl, rfl, rfl⟩ | exact fun _ => ⟨rfl, rfl, rfl, rfl, rfl⟩ | apply And.intro

theorem opcodeRowE_sound : TableSound 224 opcodeRowE := by
  simp only [opcodeRowE, TableSound, OpcodeRow.Sound]
  repeat' first
    | exact trivial | exact ⟨rfl, rfl, rfl, rfl, rfl⟩ | exact fun _ => ⟨rfl, rfl, rfl, rfl, rfl⟩ | apply And.intro

theorem opcodeRowF_sound : TableSound 240 opcodeRowF := by
  simp only [opcodeRowF, TableSound, OpcodeRow.Sound]
  repeat' first
    | exact trivial | exact ⟨rfl, rfl, rfl, rfl, rfl⟩ | exact fun _ => ⟨rfl, rfl, rfl, rfl, rfl⟩ | apply And.intro

/-- Two rows of sixteen opcodes and more, one after the other. -/
theorem TableSound.append16 {n : Nat} {r r' : List (Option OpcodeRow)} (hr : r.length = 16) (h : TableSound n r)
    (h' : TableSound (n + 16) r') : TableSound n (r ++ r') := h.append (by rw [hr]; exact h')

theorem opcodeTable_sound : TableSound 0 opcodeTable := by
  simp only [opcodeTable, List.append_assoc]
  refine TableSound.append16 (by rfl) opcodeRow0_sound ?_
  refine TableSound.append16 (by rfl) opcodeRow1_sound ?_
  refine TableSound.append16 (by rfl) opcodeRow2_sound ?_
  refine TableSound.append16 (by rfl) opcodeRow3_sound ?_
  refine TableSound.append16 (by rfl) opcodeRow4_sound ?_
  refine TableSound.append16 (by rfl) opcodeRow5_sound ?_
  refine TableSound.append16 (by rfl) opcodeRow6_sound ?_
  refine TableSound.append16 (by rfl) opcodeRow7_sound ?_
  refine TableSound.append16 (by rfl) opcodeRow8_sound ?_
  refine TableSound.append16 (by rfl) opcodeRow9_sound ?_
  refine TableSound.append16 (by rfl) opcodeRowA_sound ?_
  refine TableSound.append16 (by rfl) opcodeRowB_sound ?_
  refine TableSound.append16 (by rfl) opcodeRowC_sound ?_
  refine TableSound.append16 (by rfl) opcodeRowD_sound ?_
  refine TableSound.append16 (by rfl) opcodeRowE_sound ?_
  exact opcodeRowF_sound

/-- The entry an opcode is decoded by keeps its promise at that opcode. -/
theorem opcodeEntry_sound {ext : Bool} {op : Byte} {row : OpcodeRow} (h : opcodeEntry ext op = some row) :
    row.Sound op.toNat ∧ (ext || !row.optional) = true := by
  unfold opcodeEntry at h
  split at h
  · rename_i row' ht
    split at h
    · cases h
    · rename_i hopt
      cases h
      have hs := TableSound.entry opcodeTable_sound ht
      rw [Nat.zero_add] at hs
      refine ⟨hs, ?_⟩
      clear ht hs
      cases ext <;> cases hr : row.optional <;> simp_all
  · cases h

end Sys2Proof
end

