-- ==== Sys2Proof/Laws/Fetch.lean ====
section
/-! SUPPORT. What fetching an instruction can do, case by case: which byte it reads, which fault ends it, which
instruction it answers and where it leaves PC. -/

namespace Sys2Proof

theorem decodeOp_of_entry {ext : Bool} {op : Byte} {row : OpcodeRow} (h : opcodeEntry ext op = some row) :
    decodeOp ext op = (row.mnemonic, row.mode) := by
  simp only [decodeOp, h]

theorem decodeOp_of_none {ext : Bool} {op : Byte} (h : opcodeEntry ext op = none) :
    decodeOp ext op = (.UNK, .unknown) := by
  simp only [decodeOp, h]

theorem decode_of_none {ext : Bool} {op : Byte} (h : opcodeEntry ext op = none) (rest : List Byte) :
    decode ext (op :: rest) = .rejected (.undefinedOpcode op) := by
  simp only [decode, h]

/-- An entry's format takes as many operand bytes as its mode (R81, R82). -/
theorem OpcodeRow.Sound.operandBytes {n : Nat} {row : OpcodeRow} (h : row.Sound n) :
    (∀ i, row.build = .alone i → row.mode.operandBytes = 0) ∧
    (∀ f, row.build = .byte f → row.mode.operandBytes = 1) ∧
    (∀ f, row.build = .word f → row.mode.operandBytes = 2) := by
  refine ⟨fun i hb => ?_, fun f hb => ?_, fun f hb => ?_⟩ <;> simp only [OpcodeRow.Sound, OpcodeRow.Names, hb] at h
  · rw [← h.2.2.2.1, ← Operand.bytes_length, h.2.1]; rfl
  · rw [← (h 0).2.2.2.1, ← Operand.bytes_length, (h 0).2.1]; rfl
  · rw [← (h 0).2.2.2.1, ← Operand.bytes_length, (h 0).2.1]; rfl

/-- No entry has the mode of an undefined opcode. -/
theorem OpcodeRow.Sound.mode_ne_unknown {n : Nat} {row : OpcodeRow} (h : row.Sound n) : row.mode ≠ .unknown := by
  have hne : ∀ o : Operand, o.mode ≠ .unknown := fun o => by cases o <;> exact AddrMode.noConfusion
  cases hb : row.build with
  | alone i => simp only [OpcodeRow.Sound, OpcodeRow.Names, hb] at h; exact h.2.2.2.1 ▸ hne _
  | byte f => simp only [OpcodeRow.Sound, OpcodeRow.Names, hb] at h; exact (h 0).2.2.2.1 ▸ hne _
  | word f => simp only [OpcodeRow.Sound, OpcodeRow.Names, hb] at h; exact (h 0).2.2.2.1 ▸ hne _

namespace Machine

theorem add_one_one (w : Word) : w + 1 + 1 = w + 2 := by bv_omega

theorem fetchInstr_of_unreadable {s : State} (h : s.read s.pc = none) :
    fetchInstr s = .error (.addressingError s.pc .read) s := by
  rw [fetchInstr, look_bind_apply, M.bind_error (fetch8_of_none h)]

theorem fetchInstr_of_undefined {s : State} {op : Byte} (h : s.read s.pc = some op)
    (he : opcodeEntry s.extUndoc op = none) :
    fetchInstr s = .error (.decodeError op s.pc) (s.setPc (s.pc + 1)) := by
  simp only [fetchInstr, look_bind_apply, M.bind_ok (fetch8_of_some h), State.setPc_extUndoc, he, raise_apply]

theorem fetchInstr_of_entry {s : State} {op : Byte} {row : OpcodeRow} (h : s.read s.pc = some op)
    (he : opcodeEntry s.extUndoc op = some row) : fetchInstr s = fetchOperand row (s.setPc (s.pc + 1)) := by
  simp only [fetchInstr, look_bind_apply, M.bind_ok (fetch8_of_some h), State.setPc_extUndoc, he]

section
variable {row : OpcodeRow} {s : State}

theorem fetchOperand_alone {i : Instr} (hb : row.build = .alone i) : fetchOperand row s = .ok i s := by
  simp only [fetchOperand, hb, M.pure_apply]

theorem immediateByte_of_some {b : Byte} (isNop : Bool) (h : s.read s.pc = some b) :
    immediateByte isNop s = .ok b (s.setPc (s.pc + 1)) := by
  have h' : (s.setPc (s.pc + 1)).read s.pc = some b := h
  simp only [immediateByte, look_bind_apply, M.bind_ok (setPC_apply _ s)]
  cases isNop
  · exact memRead_of_some h'
  · simp only [if_true, look_apply, h', Option.getD_some]

theorem fetchOperand_byte {f : Byte → Instr} {b : Byte} (hb : row.build = .byte f) (h : s.read s.pc = some b) :
    fetchOperand row s = .ok (f b) (s.setPc (s.pc + 1)) := by
  simp only [fetchOperand, hb]
  split
  · rw [M.bind_ok (immediateByte_of_some _ h), M.pure_apply]
  · rw [M.bind_ok (fetch8_of_some h), M.pure_apply]

/-- An unreadable operand byte ends the fetch, but for an optional immediate NOP (R258). -/
theorem fetchOperand_byte_unreadable {f : Byte → Instr} (hb : row.build = .byte f)
    (hn : (row.mnemonic, row.mode) ≠ (.NOP, .immediate)) (h : s.read s.pc = none) :
    ∃ t, fetchOperand row s = .error (.addressingError s.pc .read) t := by
  have h' : (s.setPc (s.pc + 1)).read s.pc = none := h
  simp only [fetchOperand, hb]
  split
  · rename_i hm
    have hnop : (row.mnemonic == Mnemonic.NOP) = false := by
      cases hc : row.mnemonic == Mnemonic.NOP
      · rfl
      · exact absurd (by rw [eq_of_beq hc, hm]) hn
    refine ⟨s.setPc (s.pc + 1), M.bind_error ?_⟩
    simp only [immediateByte, hnop, look_bind_apply, M.bind_ok (setPC_apply _ s)]
    exact memRead_of_none h'
  · exact ⟨s, M.bind_error (fetch8_of_none h)⟩

/-- An optional immediate NOP is fetched whether or not its operand byte can be read. -/
theorem fetchOperand_nop {f : Byte → Instr} (hb : row.build = .byte f)
    (hn : (row.mnemonic, row.mode) = (.NOP, .immediate)) :
    ∃ b, fetchOperand row s = .ok (f b) (s.setPc (s.pc + 1)) := by
  obtain ⟨h1, h2⟩ := Prod.mk.injEq _ _ _ _ ▸ hn
  refine ⟨(s.read s.pc).getD 0, ?_⟩
  simp only [fetchOperand, hb, h1, h2, if_true]
  rfl

theorem fetchOperand_word {f : Word → Instr} {b c : Byte} (hb : row.build = .word f) (h1 : s.read s.pc = some b)
    (h2 : s.read (s.pc + 1) = some c) :
    fetchOperand row s = .ok (f (wordOf c b)) (s.setPc (s.pc + 2)) := by
  have h2' : (s.setPc (s.pc + 1)).read (s.setPc (s.pc + 1)).pc = some c := h2
  simp only [fetchOperand, hb, M.bind_ok (fetch8_of_some h1), M.bind_ok (fetch8_of_some h2'), M.pure_apply,
    State.setPc_pc, add_one_one]
  rfl

theorem fetchOperand_word_low_unreadable {f : Word → Instr} (hb : row.build = .word f) (h : s.read s.pc = none) :
    fetchOperand row s = .error (.addressingError s.pc .read) s := by
  simp only [fetchOperand, hb, M.bind_error (fetch8_of_none h)]

theorem fetchOperand_word_high_unreadable {f : Word → Instr} {b : Byte} (hb : row.build = .word f)
    (h1 : s.read s.pc = some b) (h2 : s.read (s.pc + 1) = none) :
    fetchOperand row s = .error (.addressingError (s.pc + 1) .read) (s.setPc (s.pc + 1)) := by
  have h2' : (s.setPc (s.pc + 1)).read (s.setPc (s.pc + 1)).pc = none := h2
  simp only [fetchOperand, hb, M.bind_ok (fetch8_of_some h1), M.bind_error (fetch8_of_none h2'), State.setPc_pc]

end

/-- A fetch that succeeds moves PC past the opcode and the operand bytes of the instruction's mode (R111). -/
theorem fetchInstr_moves_pc {s t : State} {i : Instr} (h : fetchInstr s = .ok i t) :
    t = s.setPc (s.pc + 1 + BitVec.ofNat 16 i.operand.mode.operandBytes) := by
  cases h0 : s.read s.pc with
  | none => rw [fetchInstr_of_unreadable h0] at h; cases h
  | some op =>
  cases he : opcodeEntry s.extUndoc op with
  | none => rw [fetchInstr_of_undefined h0 he] at h; cases h
  | some row =>
  rw [fetchInstr_of_entry h0 he] at h
  have hs := (opcodeEntry_sound he).1
  obtain ⟨n0, n1, n2⟩ := hs.operandBytes
  cases hb : row.build with
  | alone j =>
    rw [fetchOperand_alone hb] at h
    cases h
    simp only [OpcodeRow.Sound, OpcodeRow.Names, hb] at hs
    rw [hs.2.2.2.1, n0 _ hb]
    simp
  | byte f =>
    have key : ∀ b, (f b).operand.mode.operandBytes = 1 := fun b => by
      simp only [OpcodeRow.Sound, OpcodeRow.Names, hb] at hs
      rw [(hs b).2.2.2.1, n1 _ hb]
    by_cases hn : (row.mnemonic, row.mode) = (.NOP, .immediate)
    · obtain ⟨b, hf⟩ := fetchOperand_nop (s := s.setPc (s.pc + 1)) hb hn
      rw [hf] at h
      cases h
      rw [key]; rfl
    · cases h1 : (s.setPc (s.pc + 1)).read (s.setPc (s.pc + 1)).pc with
      | none =>
        obtain ⟨u, hf⟩ := fetchOperand_byte_unreadable hb hn h1
        rw [hf] at h; cases h
      | some b =>
        rw [fetchOperand_byte hb h1] at h
        cases h
        rw [key]; rfl
  | word f =>
    cases h1 : (s.setPc (s.pc + 1)).read (s.setPc (s.pc + 1)).pc with
    | none => rw [fetchOperand_word_low_unreadable hb h1] at h; cases h
    | some b =>
    cases h2 : (s.setPc (s.pc + 1)).read ((s.setPc (s.pc + 1)).pc + 1) with
    | none => rw [fetchOperand_word_high_unreadable hb h1 h2] at h; cases h
    | some c =>
      rw [fetchOperand_word hb h1 h2] at h
      cases h
      simp only [OpcodeRow.Sound, OpcodeRow.Names, hb] at hs
      rw [(hs _).2.2.2.1, n2 _ hb]; rfl

end Machine

end Sys2Proof
end

