-- ==== Sys2Proof/Laws/Legal.lean ====
section
/-! SUPPORT. What a legal bank table says of an address: which bank it reaches, and that the place behind it lies inside
its memory. -/

namespace Sys2Proof.Machine

theorem State.legalBanks_iff {s : State} : s.legalBanks = true ↔
    s.bank[0] = .sysRam ∧ s.bank[1] = .unassigned ∧ s.bank[2] = .unassigned ∧ s.bank[3] = .saveRam ∧
    s.bank[4].legalCartridge s.prgUnits = true ∧ s.bank[5].legalCartridge s.prgUnits = true ∧
    s.bank[6].legalCartridge s.prgUnits = true ∧ s.bank[7].legalCartridge s.prgUnits = true := by
  simp only [State.legalBanks, Bool.and_eq_true, beq_iff_eq, and_assoc]

/-- The entry of a bank whose index is known. -/
theorem State.bankAt_eq {s : State} {addr : Word} {n : Nat} (hn : n < 8) (h : bankIndex addr = n) :
    s.bankAt addr = s.bank[n] := by
  subst h
  rfl

/-- The bank index of an address between two multiples of 0x2000. -/
theorem bankIndex_of_range {addr : Word} {n : Nat} (h1 : n * 8192 ≤ addr.toNat) (h2 : addr.toNat < (n + 1) * 8192) :
    bankIndex addr = n := by
  simp only [bankIndex, Config.bankSize]
  omega

/-- Under a legal bank table an address reaches system RAM, save RAM, nothing, or a slice of the image. -/
theorem State.bankAt_legal {s : State} (h : s.legalBanks = true) (addr : Word) :
    (bankIndex addr = 0 ∧ s.bankAt addr = .sysRam) ∨ (bankIndex addr = 3 ∧ s.bankAt addr = .saveRam) ∨
    ((bankIndex addr = 1 ∨ bankIndex addr = 2) ∧ s.bankAt addr = .unassigned) ∨
    (4 ≤ bankIndex addr ∧ (s.bankAt addr).legalCartridge s.prgUnits = true) := by
  obtain ⟨h0, h1, h2, h3, h4, h5, h6, h7⟩ := State.legalBanks_iff.mp h
  have hlt := bankIndex_lt addr
  have hcases : bankIndex addr = 0 ∨ bankIndex addr = 1 ∨ bankIndex addr = 2 ∨ bankIndex addr = 3 ∨
      bankIndex addr = 4 ∨ bankIndex addr = 5 ∨ bankIndex addr = 6 ∨ bankIndex addr = 7 := by omega
  rcases hcases with e | e | e | e | e | e | e | e <;> rw [State.bankAt_eq (by omega) e] <;> simp [*]

/-- A slice the bank table names is one of the image (R31, R52). -/
theorem State.slice_in_image {s : State} (h : s.legalBanks = true) {addr : Word} {k : Nat} {w : Bool}
    (hb : s.bankAt addr = .prgSlice k w) : k < Config.slicesPerUnit * s.prgUnits := by
  rcases State.bankAt_legal h addr with ⟨-, e⟩ | ⟨-, e⟩ | ⟨-, e⟩ | ⟨-, e⟩
  · rw [hb] at e; cases e
  · rw [hb] at e; cases e
  · rw [hb] at e; cases e
  · simpa [hb, BankEntry.legalCartridge] using e

/-- Whether a place lies inside its memory. -/
def Place.inside (prgUnits : Nat) : Place → Prop
  | .ram i => i < Config.ramSize
  | .saveRam i => i < Config.saveRamSize
  | .prg i => i < Config.unitSize * prgUnits

/-- Under a legal bank table every place an address reaches lies inside its memory. -/
theorem State.locate_inside {s : State} (h : s.legalBanks = true) {addr : Word} {pl : Place}
    (hl : s.locate addr = some pl) : pl.inside s.prgUnits := by
  have ho : bankOffset addr < 8192 := Nat.mod_lt _ (by decide)
  simp only [State.locate] at hl
  cases hb : s.bankAt addr with
  | unassigned => rw [hb] at hl; cases hl
  | sysRam => rw [hb] at hl; cases hl; exact Nat.mod_lt _ (by decide)
  | saveRam => rw [hb] at hl; cases hl; exact ho
  | prgSlice k w =>
    have hk := State.slice_in_image h hb
    rw [hb] at hl
    cases hl
    simp only [Place.inside, Config.slicesPerUnit, Config.sliceSize, Config.unitSize] at hk ⊢
    omega

end Sys2Proof.Machine
end

