-- ==== Sys2Proof/Laws/Orderly.lean ====
section
/-! SUPPORT. How a statement sequence can end: with the bank table as it was, and if with a fault, then with an
AddressingError at an address nothing is assigned to (R49, R50, R272). One lemma per shared operation; the operations
of every mnemonic follow. -/

namespace Sys2Proof.Machine

section
variable {α β : Type}

/-- `m` leaves the bank table as it was, and faults only on an access to an unassigned bank. -/
def Orderly (m : M α) : Prop := ∀ s,
  match m s with
  | .ok _ t => t.bank = s.bank
  | .error r _ => ∃ addr kind, r = .addressingError addr kind ∧ s.locate addr = none

theorem Orderly.pure (a : α) : Orderly (Pure.pure a : M α) := fun _ => rfl

theorem Orderly.look (g : State → α) : Orderly (Machine.look g) := fun _ => rfl

theorem Orderly.update {g : State → State} (h : ∀ s, (g s).bank = s.bank) : Orderly (Machine.update g) := h

theorem Orderly.bind {m : M α} {k : α → M β} (hm : Orderly m) (hk : ∀ a, Orderly (k a)) : Orderly (m >>= k) := by
  intro s
  have h1 := hm s
  rw [M.bind_apply]
  cases hms : m s with
  | error r t => rw [hms] at h1; exact h1
  | ok a u =>
    rw [hms] at h1
    have hb : u.bank = s.bank := h1
    have h2 := hk a u
    show match k a u with
      | .ok _ t => t.bank = s.bank
      | .error r _ => ∃ addr kind, r = .addressingError addr kind ∧ s.locate addr = none
    cases hku : k a u with
    | ok b t => rw [hku] at h2; exact h2.trans hb
    | error r t =>
      rw [hku] at h2
      obtain ⟨addr, kind, h3, h4⟩ := h2
      exact ⟨addr, kind, h3, (State.locate_of_bank hb addr) ▸ h4⟩

theorem Orderly.memRead (a : Word) : Orderly (Machine.memRead a) := by
  intro s
  cases h : s.read a with
  | some v => rw [memRead_of_some h]
  | none => rw [memRead_of_none h]; exact ⟨a, .read, rfl, by simpa [State.read] using h⟩

theorem Orderly.memWrite (a : Word) (v : Byte) : Orderly (Machine.memWrite a v) := by
  intro s
  cases h : s.write a v with
  | some t => rw [memWrite_of_some h]; exact (State.write_fields h).2.2.2.2.2.2.2.1
  | none => rw [memWrite_of_none h]; exact ⟨a, .write, rfl, by simpa [State.write] using h⟩

theorem Orderly.memRead16 (a b : Word) : Orderly (Machine.memRead16 a b) :=
  Orderly.bind (Orderly.memRead a) fun _ => Orderly.bind (Orderly.memRead b) fun _ => Orderly.pure _

theorem Orderly.fetch8 : Orderly Machine.fetch8 :=
  Orderly.bind (Orderly.look _) fun _ => Orderly.bind (Orderly.memRead _) fun _ =>
    Orderly.bind (Orderly.update fun _ => rfl) fun _ => Orderly.pure _

theorem Orderly.push (v : Byte) : Orderly (Machine.push v) :=
  Orderly.bind (Orderly.look _) fun _ => Orderly.bind (Orderly.memWrite _ _) fun _ => Orderly.update fun _ => rfl

theorem Orderly.pop : Orderly Machine.pop :=
  Orderly.bind (Orderly.update fun _ => rfl) fun _ => Orderly.bind (Orderly.look _) fun _ => Orderly.memRead _

theorem Orderly.pushWord (w : Word) : Orderly (Machine.pushWord w) :=
  Orderly.bind (Orderly.push _) fun _ => Orderly.push _

theorem Orderly.popWord : Orderly Machine.popWord :=
  Orderly.bind Orderly.pop fun _ => Orderly.bind Orderly.pop fun _ => Orderly.pure _

theorem Orderly.resolve (o : Operand) : Orderly (Machine.resolve o) := by
  cases o with
  | ind p => exact Orderly.bind (Orderly.memRead16 _ _) fun _ => Orderly.pure _
  | izx b => exact Orderly.bind (Orderly.look _) fun _ => Orderly.bind (Orderly.memRead16 _ _) fun _ => Orderly.pure _
  | izy b => exact Orderly.bind (Orderly.memRead16 _ _) fun _ => Orderly.bind (Orderly.look _) fun _ => Orderly.pure _
  | _ => exact fun _ => rfl

theorem Orderly.readEa (ea : Option Word) : Orderly (Machine.readEa ea) := by
  cases ea with
  | none => exact Orderly.look _
  | some a => exact Orderly.memRead a

theorem Orderly.writeEa (ea : Option Word) (v : Byte) : Orderly (Machine.writeEa ea v) := by
  cases ea with
  | none => exact Orderly.update fun _ => rfl
  | some a => exact Orderly.memWrite a v

theorem Orderly.jumpTo (ea : Option Word) : Orderly (Machine.jumpTo ea) := by
  cases ea with
  | none => exact Orderly.pure ()
  | some a => exact Orderly.update fun _ => rfl

theorem Orderly.loadOperand (o : Operand) : Orderly (Machine.loadOperand o) := by
  cases o with
  | imm b => exact Orderly.pure b
  | _ => exact Orderly.bind (Orderly.resolve _) fun _ => Orderly.readEa _

end

/-- The operation of every mnemonic is orderly. -/
theorem handler_orderly (m : Mnemonic) (o : Operand) : Orderly (handler m o) := by
  cases m <;> simp only [handler] <;> first
    | unfold opLda | unfold opLdx | unfold opLdy | unfold opLax | unfold opSta | unfold opStx | unfold opSty
    | unfold opSax | unfold opTax | unfold opTay | unfold opTxa | unfold opTya | unfold opTsx | unfold opTxs
    | unfold opAdc | unfold opSbc | unfold opAnd | unfold opOra | unfold opEor | unfold opCmp | unfold opCpx
    | unfold opCpy | unfold opBit | unfold opInc stepMemory | unfold opDec stepMemory | unfold opInx | unfold opIny
    | unfold opDex | unfold opDey | unfold opAsl shiftOperand | unfold opLsr shiftOperand
    | unfold opRol shiftOperand | unfold opRor shiftOperand | unfold branchIf | unfold opJmp | unfold opJsr
    | unfold opRts | unfold opBrk enterVector | unfold opRti returnFromVector | unfold opPha | unfold opPla
    | unfold opPhp | unfold opPlp | unfold opNop | unfold opSlo | unfold opRla | unfold opSre | unfold opRra
    | unfold opDcp | unfold opIsb | skip
  all_goals repeat' first
    | with_reducible exact Orderly.pure _ | with_reducible exact Orderly.look _
    | with_reducible exact Orderly.resolve _ | with_reducible exact Orderly.readEa _
    | with_reducible exact Orderly.loadOperand _ | with_reducible exact Orderly.memRead16 _ _
    | with_reducible exact Orderly.writeEa _ _ | with_reducible exact Orderly.jumpTo _
    | with_reducible exact Orderly.push _ | with_reducible exact Orderly.pushWord _
    | with_reducible exact Orderly.pop | with_reducible exact Orderly.popWord
    | exact Orderly.update fun _ => rfl
    | with_reducible refine Orderly.bind ?_ fun _ => ?_
    | split

theorem fetchOperand_orderly (row : OpcodeRow) : Orderly (fetchOperand row) := by
  unfold fetchOperand
  split
  · exact Orderly.pure _
  · split
    · refine Orderly.bind (Orderly.bind (Orderly.look _) fun ea =>
        Orderly.bind (Orderly.update fun _ => rfl) fun _ => ?_) fun _ => Orderly.pure _
      split
      · exact Orderly.look _
      · exact Orderly.memRead _
    · exact Orderly.bind Orderly.fetch8 fun _ => Orderly.pure _
  · exact Orderly.bind Orderly.fetch8 fun _ => Orderly.bind Orderly.fetch8 fun _ => Orderly.pure _

/-- An instruction faults only with an AddressingError at an address nothing is assigned to. -/
theorem exec_eq_fault {i : Instr} {s : State} {f : Fault} (h : exec i s = .fault f) :
    ∃ addr kind left, f = .addressingError addr kind left ∧ s.locate addr = none := by
  have ho := handler_orderly i.mnemonic i.operand s
  rw [exec_eq_handler] at h
  unfold finish at h
  split at h <;> cases h
  rename_i r t hr
  rw [hr] at ho
  obtain ⟨addr, kind, rfl, hl⟩ := ho
  exact ⟨addr, kind, _, rfl, hl⟩

/-- A fetch faults with a DecodeError at the opcode's address, or with an AddressingError at an address nothing is
assigned to (R280). -/
theorem fetchInstr_eq_error {s t : State} {r : FaultRecord} (h : fetchInstr s = .error r t) :
    (∃ op, r = .decodeError op s.pc ∧ s.read s.pc = some op ∧ opcodeEntry s.extUndoc op = none) ∨
    (∃ addr kind, r = .addressingError addr kind ∧ s.locate addr = none) := by
  cases h0 : s.read s.pc with
  | none =>
    rw [fetchInstr_of_unreadable h0] at h
    cases h
    exact .inr ⟨_, _, rfl, by simpa [State.read] using h0⟩
  | some op =>
    cases he : opcodeEntry s.extUndoc op with
    | none =>
      rw [fetchInstr_of_undefined h0 he] at h
      cases h
      exact .inl ⟨op, rfl, rfl, he⟩
    | some row =>
      have ho := fetchOperand_orderly row (s.setPc (s.pc + 1))
      rw [← fetchInstr_of_entry h0 he, h] at ho
      exact .inr ho

end Sys2Proof.Machine
end

