-- ==== Sys2Proof/Laws/PerInstr.lean ====
section
/-! SUPPORT. The family `Encoding`: one lemma per constructor of Instr, each about the instruction as syntax. -/

-- One lemma after another: side by side, the 231 of them wait on one another in as many threads.
set_option Elab.async false

namespace Sys2Proof.Laws.Encoding

open Sys2Proof

/-- The opcode table's entry at an instruction's opcode byte carries its mnemonic, its mode and its place among the
optional opcodes, and completing that entry with the instruction's operand bytes gives the instruction back (R84,
R93, R98). -/
def Statement (i : Instr) : Prop :=
  ∃ row, opcodeTable[i.opcode.toNat]? = some (some row) ∧ row.mnemonic = i.mnemonic ∧ row.mode = i.operand.mode ∧
    row.optional = i.optional ∧ ∀ rest, row.build.complete (i.operand.bytes ++ rest) = .decoded i rest

theorem ldaIzx (b : Byte) : Statement (.ldaIzx b) := ⟨_, opcodeTable_rowA 1, rfl, rfl, rfl, fun _ => rfl⟩
theorem ldaZp (b : Byte) : Statement (.ldaZp b) := ⟨_, opcodeTable_rowA 5, rfl, rfl, rfl, fun _ => rfl⟩
theorem ldaImm (b : Byte) : Statement (.ldaImm b) := ⟨_, opcodeTable_rowA 9, rfl, rfl, rfl, fun _ => rfl⟩
theorem ldaAbs (a : Word) : Statement (.ldaAbs a) := ⟨_, opcodeTable_rowA 13, rfl, rfl, rfl, completeWord _ a⟩
theorem ldaIzy (b : Byte) : Statement (.ldaIzy b) := ⟨_, opcodeTable_rowB 1, rfl, rfl, rfl, fun _ => rfl⟩
theorem ldaZpx (b : Byte) : Statement (.ldaZpx b) := ⟨_, opcodeTable_rowB 5, rfl, rfl, rfl, fun _ => rfl⟩
theorem ldaAby (a : Word) : Statement (.ldaAby a) := ⟨_, opcodeTable_rowB 9, rfl, rfl, rfl, completeWord _ a⟩
theorem ldaAbx (a : Word) : Statement (.ldaAbx a) := ⟨_, opcodeTable_rowB 13, rfl, rfl, rfl, completeWord _ a⟩
theorem ldxImm (b : Byte) : Statement (.ldxImm b) := ⟨_, opcodeTable_rowA 2, rfl, rfl, rfl, fun _ => rfl⟩
theorem ldxZp (b : Byte) : Statement (.ldxZp b) := ⟨_, opcodeTable_rowA 6, rfl, rfl, rfl, fun _ => rfl⟩
theorem ldxAbs (a : Word) : Statement (.ldxAbs a) := ⟨_, opcodeTable_rowA 14, rfl, rfl, rfl, completeWord _ a⟩
theorem ldxZpy (b : Byte) : Statement (.ldxZpy b) := ⟨_, opcodeTable_rowB 6, rfl, rfl, rfl, fun _ => rfl⟩
theorem ldxAby (a : Word) : Statement (.ldxAby a) := ⟨_, opcodeTable_rowB 14, rfl, rfl, rfl, completeWord _ a⟩
theorem ldyImm (b : Byte) : Statement (.ldyImm b) := ⟨_, opcodeTable_rowA 0, rfl, rfl, rfl, fun _ => rfl⟩
theorem ldyZp (b : Byte) : Statement (.ldyZp b) := ⟨_, opcodeTable_rowA 4, rfl, rfl, rfl, fun _ => rfl⟩
theorem ldyAbs (a : Word) : Statement (.ldyAbs a) := ⟨_, opcodeTable_rowA 12, rfl, rfl, rfl, completeWord _ a⟩
theorem ldyZpx (b : Byte) : Statement (.ldyZpx b) := ⟨_, opcodeTable_rowB 4, rfl, rfl, rfl, fun _ => rfl⟩
theorem ldyAbx (a : Word) : Statement (.ldyAbx a) := ⟨_, opcodeTable_rowB 12, rfl, rfl, rfl, completeWord _ a⟩
theorem staIzx (b : Byte) : Statement (.staIzx b) := ⟨_, opcodeTable_row8 1, rfl, rfl, rfl, fun _ => rfl⟩
theorem staZp (b : Byte) : Statement (.staZp b) := ⟨_, opcodeTable_row8 5, rfl, rfl, rfl, fun _ => rfl⟩
theorem staAbs (a : Word) : Statement (.staAbs a) := ⟨_, opcodeTable_row8 13, rfl, rfl, rfl, completeWord _ a⟩
theorem staIzy (b : Byte) : Statement (.staIzy b) := ⟨_, opcodeTable_row9 1, rfl, rfl, rfl, fun _ => rfl⟩
theorem staZpx (b : Byte) : Statement (.staZpx b) := ⟨_, opcodeTable_row9 5, rfl, rfl, rfl, fun _ => rfl⟩
theorem staAby (a : Word) : Statement (.staAby a) := ⟨_, opcodeTable_row9 9, rfl, rfl, rfl, completeWord _ a⟩
theorem staAbx (a : Word) : Statement (.staAbx a) := ⟨_, opcodeTable_row9 13, rfl, rfl, rfl, completeWord _ a⟩
theorem stxZp (b : Byte) : Statement (.stxZp b) := ⟨_, opcodeTable_row8 6, rfl, rfl, rfl, fun _ => rfl⟩
theorem stxAbs (a : Word) : Statement (.stxAbs a) := ⟨_, opcodeTable_row8 14, rfl, rfl, rfl, completeWord _ a⟩
theorem stxZpy (b : Byte) : Statement (.stxZpy b) := ⟨_, opcodeTable_row9 6, rfl, rfl, rfl, fun _ => rfl⟩
theorem styZp (b : Byte) : Statement (.styZp b) := ⟨_, opcodeTable_row8 4, rfl, rfl, rfl, fun _ => rfl⟩
theorem styAbs (a : Word) : Statement (.styAbs a) := ⟨_, opcodeTable_row8 12, rfl, rfl, rfl, completeWord _ a⟩
theorem styZpx (b : Byte) : Statement (.styZpx b) := ⟨_, opcodeTable_row9 4, rfl, rfl, rfl, fun _ => rfl⟩
theorem tax : Statement .tax := ⟨_, opcodeTable_rowA 10, rfl, rfl, rfl, fun _ => rfl⟩
theorem tay : Statement .tay := ⟨_, opcodeTable_rowA 8, rfl, rfl, rfl, fun _ => rfl⟩
theorem txa : Statement .txa := ⟨_, opcodeTable_row8 10, rfl, rfl, rfl, fun _ => rfl⟩
theorem tya : Statement .tya := ⟨_, opcodeTable_row9 8, rfl, rfl, rfl, fun _ => rfl⟩
theorem tsx : Statement .tsx := ⟨_, opcodeTable_rowB 10, rfl, rfl, rfl, fun _ => rfl⟩
theorem txs : Statement .txs := ⟨_, opcodeTable_row9 10, rfl, rfl, rfl, fun _ => rfl⟩
theorem adcIzx (b : Byte) : Statement (.adcIzx b) := ⟨_, opcodeTable_row6 1, rfl, rfl, rfl, fun _ => rfl⟩
theorem adcZp (b : Byte) : Statement (.adcZp b) := ⟨_, opcodeTable_row6 5, rfl, rfl, rfl, fun _ => rfl⟩
theorem adcImm (b : Byte) : Statement (.adcImm b) := ⟨_, opcodeTable_row6 9, rfl, rfl, rfl, fun _ => rfl⟩
theorem adcAbs (a : Word) : Statement (.adcAbs a) := ⟨_, opcodeTable_row6 13, rfl, rfl, rfl, completeWord _ a⟩
theorem adcIzy (b : Byte) : Statement (.adcIzy b) := ⟨_, opcodeTable_row7 1, rfl, rfl, rfl, fun _ => rfl⟩
theorem adcZpx (b : Byte) : Statement (.adcZpx b) := ⟨_, opcodeTable_row7 5, rfl, rfl, rfl, fun _ => rfl⟩
theorem adcAby (a : Word) : Statement (.adcAby a) := ⟨_, opcodeTable_row7 9, rfl, rfl, rfl, completeWord _ a⟩
theorem adcAbx (a : Word) : Statement (.adcAbx a) := ⟨_, opcodeTable_row7 13, rfl, rfl, rfl, completeWord _ a⟩
theorem sbcIzx (b : Byte) : Statement (.sbcIzx b) := ⟨_, opcodeTable_rowE 1, rfl, rfl, rfl, fun _ => rfl⟩
theorem sbcZp (b : Byte) : Statement (.sbcZp b) := ⟨_, opcodeTable_rowE 5, rfl, rfl, rfl, fun _ => rfl⟩
theorem sbcImm (b : Byte) : Statement (.sbcImm b) := ⟨_, opcodeTable_rowE 9, rfl, rfl, rfl, fun _ => rfl⟩
theorem sbcAbs (a : Word) : Statement (.sbcAbs a) := ⟨_, opcodeTable_rowE 13, rfl, rfl, rfl, completeWord _ a⟩
theorem sbcIzy (b : Byte) : Statement (.sbcIzy b) := ⟨_, opcodeTable_rowF 1, rfl, rfl, rfl, fun _ => rfl⟩
theorem sbcZpx (b : Byte) : Statement (.sbcZpx b) := ⟨_, opcodeTable_rowF 5, rfl, rfl, rfl, fun _ => rfl⟩
theorem sbcAby (a : Word) : Statement (.sbcAby a) := ⟨_, opcodeTable_rowF 9, rfl, rfl, rfl, completeWord _ a⟩
theorem sbcAbx (a : Word) : Statement (.sbcAbx a) := ⟨_, opcodeTable_rowF 13, rfl, rfl, rfl, completeWord _ a⟩
theorem andIzx (b : Byte) : Statement (.andIzx b) := ⟨_, opcodeTable_row2 1, rfl, rfl, rfl, fun _ => rfl⟩
theorem andZp (b : Byte) : Statement (.andZp b) := ⟨_, opcodeTable_row2 5, rfl, rfl, rfl, fun _ => rfl⟩
theorem andImm (b : Byte) : Statement (.andImm b) := ⟨_, opcodeTable_row2 9, rfl, rfl, rfl, fun _ => rfl⟩
theorem andAbs (a : Word) : Statement (.andAbs a) := ⟨_, opcodeTable_row2 13, rfl, rfl, rfl, completeWord _ a⟩
theorem andIzy (b : Byte) : Statement (.andIzy b) := ⟨_, opcodeTable_row3 1, rfl, rfl, rfl, fun _ => rfl⟩
theorem andZpx (b : Byte) : Statement (.andZpx b) := ⟨_, opcodeTable_row3 5, rfl, rfl, rfl, fun _ => rfl⟩
theorem andAby (a : Word) : Statement (.andAby a) := ⟨_, opcodeTable_row3 9, rfl, rfl, rfl, completeWord _ a⟩
theorem andAbx (a : Word) : Statement (.andAbx a) := ⟨_, opcodeTable_row3 13, rfl, rfl, rfl, completeWord _ a⟩
theorem oraIzx (b : Byte) : Statement (.oraIzx b) := ⟨_, opcodeTable_row0 1, rfl, rfl, rfl, fun _ => rfl⟩
theorem oraZp (b : Byte) : Statement (.oraZp b) := ⟨_, opcodeTable_row0 5, rfl, rfl, rfl, fun _ => rfl⟩
theorem oraImm (b : Byte) : Statement (.oraImm b) := ⟨_, opcodeTable_row0 9, rfl, rfl, rfl, fun _ => rfl⟩
theorem oraAbs (a : Word) : Statement (.oraAbs a) := ⟨_, opcodeTable_row0 13, rfl, rfl, rfl, completeWord _ a⟩
theorem oraIzy (b : Byte) : Statement (.oraIzy b) := ⟨_, opcodeTable_row1 1, rfl, rfl, rfl, fun _ => rfl⟩
theorem oraZpx (b : Byte) : Statement (.oraZpx b) := ⟨_, opcodeTable_row1 5, rfl, rfl, rfl, fun _ => rfl⟩
theorem oraAby (a : Word) : Statement (.oraAby a) := ⟨_, opcodeTable_row1 9, rfl, rfl, rfl, completeWord _ a⟩
theorem oraAbx (a : Word) : Statement (.oraAbx a) := ⟨_, opcodeTable_row1 13, rfl, rfl, rfl, completeWord _ a⟩
theorem eorIzx (b : Byte) : Statement (.eorIzx b) := ⟨_, opcodeTable_row4 1, rfl, rfl, rfl, fun _ => rfl⟩
theorem eorZp (b : Byte) : Statement (.eorZp b) := ⟨_, opcodeTable_row4 5, rfl, rfl, rfl, fun _ => rfl⟩
theorem eorImm (b : Byte) : Statement (.eorImm b) := ⟨_, opcodeTable_row4 9, rfl, rfl, rfl, fun _ => rfl⟩
theorem eorAbs (a : Word) : Statement (.eorAbs a) := ⟨_, opcodeTable_row4 13, rfl, rfl, rfl, completeWord _ a⟩
theorem eorIzy (b : Byte) : Statement (.eorIzy b) := ⟨_, opcodeTable_row5 1, rfl, rfl, rfl, fun _ => rfl⟩
theorem eorZpx (b : Byte) : Statement (.eorZpx b) := ⟨_, opcodeTable_row5 5, rfl, rfl, rfl, fun _ => rfl⟩
theorem eorAby (a : Word) : Statement (.eorAby a) := ⟨_, opcodeTable_row5 9, rfl, rfl, rfl, completeWord _ a⟩
theorem eorAbx (a : Word) : Statement (.eorAbx a) := ⟨_, opcodeTable_row5 13, rfl, rfl, rfl, completeWord _ a⟩
theorem cmpIzx (b : Byte) : Statement (.cmpIzx b) := ⟨_, opcodeTable_rowC 1, rfl, rfl, rfl, fun _ => rfl⟩
theorem cmpZp (b : Byte) : Statement (.cmpZp b) := ⟨_, opcodeTable_rowC 5, rfl, rfl, rfl, fun _ => rfl⟩
theorem cmpImm (b : Byte) : Statement (.cmpImm b) := ⟨_, opcodeTable_rowC 9, rfl, rfl, rfl, fun _ => rfl⟩
theorem cmpAbs (a : Word) : Statement (.cmpAbs a) := ⟨_, opcodeTable_rowC 13, rfl, rfl, rfl, completeWord _ a⟩
theorem cmpIzy (b : Byte) : Statement (.cmpIzy b) := ⟨_, opcodeTable_rowD 1, rfl, rfl, rfl, fun _ => rfl⟩
theorem cmpZpx (b : Byte) : Statement (.cmpZpx b) := ⟨_, opcodeTable_rowD 5, rfl, rfl, rfl, fun _ => rfl⟩
theorem cmpAby (a : Word) : Statement (.cmpAby a) := ⟨_, opcodeTable_rowD 9, rfl, rfl, rfl, completeWord _ a⟩
theorem cmpAbx (a : Word) : Statement (.cmpAbx a) := ⟨_, opcodeTable_rowD 13, rfl, rfl, rfl, completeWord _ a⟩
theorem cpxImm (b : Byte) : Statement (.cpxImm b) := ⟨_, opcodeTable_rowE 0, rfl, rfl, rfl, fun _ => rfl⟩
theorem cpxZp (b : Byte) : Statement (.cpxZp b) := ⟨_, opcodeTable_rowE 4, rfl, rfl, rfl, fun _ => rfl⟩
theorem cpxAbs (a : Word) : Statement (.cpxAbs a) := ⟨_, opcodeTable_rowE 12, rfl, rfl, rfl, completeWord _ a⟩
theorem cpyImm (b : Byte) : Statement (.cpyImm b) := ⟨_, opcodeTable_rowC 0, rfl, rfl, rfl, fun _ => rfl⟩
theorem cpyZp (b : Byte) : Statement (.cpyZp b) := ⟨_, opcodeTable_rowC 4, rfl, rfl, rfl, fun _ => rfl⟩
theorem cpyAbs (a : Word) : Statement (.cpyAbs a) := ⟨_, opcodeTable_rowC 12, rfl, rfl, rfl, completeWord _ a⟩
theorem bitZp (b : Byte) : Statement (.bitZp b) := ⟨_, opcodeTable_row2 4, rfl, rfl, rfl, fun _ => rfl⟩
theorem bitAbs (a : Word) : Statement (.bitAbs a) := ⟨_, opcodeTable_row2 12, rfl, rfl, rfl, completeWord _ a⟩
theorem incZp (b : Byte) : Statement (.incZp b) := ⟨_, opcodeTable_rowE 6, rfl, rfl, rfl, fun _ => rfl⟩
theorem incAbs (a : Word) : Statement (.incAbs a) := ⟨_, opcodeTable_rowE 14, rfl, rfl, rfl, completeWord _ a⟩
theorem incZpx (b : Byte) : Statement (.incZpx b) := ⟨_, opcodeTable_rowF 6, rfl, rfl, rfl, fun _ => rfl⟩
theorem incAbx (a : Word) : Statement (.incAbx a) := ⟨_, opcodeTable_rowF 14, rfl, rfl, rfl, completeWord _ a⟩
theorem decZp (b : Byte) : Statement (.decZp b) := ⟨_, opcodeTable_rowC 6, rfl, rfl, rfl, fun _ => rfl⟩
theorem decAbs (a : Word) : Statement (.decAbs a) := ⟨_, opcodeTable_rowC 14, rfl, rfl, rfl, completeWord _ a⟩
theorem decZpx (b : Byte) : Statement (.decZpx b) := ⟨_, opcodeTable_rowD 6, rfl, rfl, rfl, fun _ => rfl⟩
theorem decAbx (a : Word) : Statement (.decAbx a) := ⟨_, opcodeTable_rowD 14, rfl, rfl, rfl, completeWord _ a⟩
theorem inx : Statement .inx := ⟨_, opcodeTable_rowE 8, rfl, rfl, rfl, fun _ => rfl⟩
theorem iny : Statement .iny := ⟨_, opcodeTable_rowC 8, rfl, rfl, rfl, fun _ => rfl⟩
theorem dex : Statement .dex := ⟨_, opcodeTable_rowC 10, rfl, rfl, rfl, fun _ => rfl⟩
theorem dey : Statement .dey := ⟨_, opcodeTable_row8 8, rfl, rfl, rfl, fun _ => rfl⟩
theorem aslZp (b : Byte) : Statement (.aslZp b) := ⟨_, opcodeTable_row0 6, rfl, rfl, rfl, fun _ => rfl⟩
theorem aslAcc : Statement .aslAcc := ⟨_, opcodeTable_row0 10, rfl, rfl, rfl, fun _ => rfl⟩
theorem aslAbs (a : Word) : Statement (.aslAbs a) := ⟨_, opcodeTable_row0 14, rfl, rfl, rfl, completeWord _ a⟩
theorem aslZpx (b : Byte) : Statement (.aslZpx b) := ⟨_, opcodeTable_row1 6, rfl, rfl, rfl, fun _ => rfl⟩
theorem aslAbx (a : Word) : Statement (.aslAbx a) := ⟨_, opcodeTable_row1 14, rfl, rfl, rfl, completeWord _ a⟩
theorem lsrZp (b : Byte) : Statement (.lsrZp b) := ⟨_, opcodeTable_row4 6, rfl, rfl, rfl, fun _ => rfl⟩
theorem lsrAcc : Statement .lsrAcc := ⟨_, opcodeTable_row4 10, rfl, rfl, rfl, fun _ => rfl⟩
theorem lsrAbs (a : Word) : Statement (.lsrAbs a) := ⟨_, opcodeTable_row4 14, rfl, rfl, rfl, completeWord _ a⟩
theorem lsrZpx (b : Byte) : Statement (.lsrZpx b) := ⟨_, opcodeTable_row5 6, rfl, rfl, rfl, fun _ => rfl⟩
theorem lsrAbx (a : Word) : Statement (.lsrAbx a) := ⟨_, opcodeTable_row5 14, rfl, rfl, rfl, completeWord _ a⟩
theorem rolZp (b : Byte) : Statement (.rolZp b) := ⟨_, opcodeTable_row2 6, rfl, rfl, rfl, fun _ => rfl⟩
theorem rolAcc : Statement .rolAcc := ⟨_, opcodeTable_row2 10, rfl, rfl, rfl, fun _ => rfl⟩
theorem rolAbs (a : Word) : Statement (.rolAbs a) := ⟨_, opcodeTable_row2 14, rfl, rfl, rfl, completeWord _ a⟩
theorem rolZpx (b : Byte) : Statement (.rolZpx b) := ⟨_, opcodeTable_row3 6, rfl, rfl, rfl, fun _ => rfl⟩
theorem rolAbx (a : Word) : Statement (.rolAbx a) := ⟨_, opcodeTable_row3 14, rfl, rfl, rfl, completeWord _ a⟩
theorem rorZp (b : Byte) : Statement (.rorZp b) := ⟨_, opcodeTable_row6 6, rfl, rfl, rfl, fun _ => rfl⟩
theorem rorAcc : Statement .rorAcc := ⟨_, opcodeTable_row6 10, rfl, rfl, rfl, fun _ => rfl⟩
theorem rorAbs (a : Word) : Statement (.rorAbs a) := ⟨_, opcodeTable_row6 14, rfl, rfl, rfl, completeWord _ a⟩
theorem rorZpx (b : Byte) : Statement (.rorZpx b) := ⟨_, opcodeTable_row7 6, rfl, rfl, rfl, fun _ => rfl⟩
theorem rorAbx (a : Word) : Statement (.rorAbx a) := ⟨_, opcodeTable_row7 14, rfl, rfl, rfl, completeWord _ a⟩
theorem bcc (b : Byte) : Statement (.bcc b) := ⟨_, opcodeTable_row9 0, rfl, rfl, rfl, fun _ => rfl⟩
theorem bcs (b : Byte) : Statement (.bcs b) := ⟨_, opcodeTable_rowB 0, rfl, rfl, rfl, fun _ => rfl⟩
theorem beq (b : Byte) : Statement (.beq b) := ⟨_, opcodeTable_rowF 0, rfl, rfl, rfl, fun _ => rfl⟩
theorem bne (b : Byte) : Statement (.bne b) := ⟨_, opcodeTable_rowD 0, rfl, rfl, rfl, fun _ => rfl⟩
theorem bmi (b : Byte) : Statement (.bmi b) := ⟨_, opcodeTable_row3 0, rfl, rfl, rfl, fun _ => rfl⟩
theorem bpl (b : Byte) : Statement (.bpl b) := ⟨_, opcodeTable_row1 0, rfl, rfl, rfl, fun _ => rfl⟩
theorem bvc (b : Byte) : Statement (.bvc b) := ⟨_, opcodeTable_row5 0, rfl, rfl, rfl, fun _ => rfl⟩
theorem bvs (b : Byte) : Statement (.bvs b) := ⟨_, opcodeTable_row7 0, rfl, rfl, rfl, fun _ => rfl⟩
theorem jmpAbs (a : Word) : Statement (.jmpAbs a) := ⟨_, opcodeTable_row4 12, rfl, rfl, rfl, completeWord _ a⟩
theorem jmpInd (a : Word) : Statement (.jmpInd a) := ⟨_, opcodeTable_row6 12, rfl, rfl, rfl, completeWord _ a⟩
theorem jsr (a : Word) : Statement (.jsr a) := ⟨_, opcodeTable_row2 0, rfl, rfl, rfl, completeWord _ a⟩
theorem rts : Statement .rts := ⟨_, opcodeTable_row6 0, rfl, rfl, rfl, fun _ => rfl⟩
theorem brk : Statement .brk := ⟨_, opcodeTable_row0 0, rfl, rfl, rfl, fun _ => rfl⟩
theorem rti : Statement .rti := ⟨_, opcodeTable_row4 0, rfl, rfl, rfl, fun _ => rfl⟩
theorem pha : Statement .pha := ⟨_, opcodeTable_row4 8, rfl, rfl, rfl, fun _ => rfl⟩
theorem pla : Statement .pla := ⟨_, opcodeTable_row6 8, rfl, rfl, rfl, fun _ => rfl⟩
theorem php : Statement .php := ⟨_, opcodeTable_row0 8, rfl, rfl, rfl, fun _ => rfl⟩
theorem plp : Statement .plp := ⟨_, opcodeTable_row2 8, rfl, rfl, rfl, fun _ => rfl⟩
theorem clc : Statement .clc := ⟨_, opcodeTable_row1 8, rfl, rfl, rfl, fun _ => rfl⟩
theorem sec : Statement .sec := ⟨_, opcodeTable_row3 8, rfl, rfl, rfl, fun _ => rfl⟩
theorem cli : Statement .cli := ⟨_, opcodeTable_row5 8, rfl, rfl, rfl, fun _ => rfl⟩
theorem sei : Statement .sei := ⟨_, opcodeTable_row7 8, rfl, rfl, rfl, fun _ => rfl⟩
theorem cld : Statement .cld := ⟨_, opcodeTable_rowD 8, rfl, rfl, rfl, fun _ => rfl⟩
theorem sed : Statement .sed := ⟨_, opcodeTable_rowF 8, rfl, rfl, rfl, fun _ => rfl⟩
theorem clv : Statement .clv := ⟨_, opcodeTable_rowB 8, rfl, rfl, rfl, fun _ => rfl⟩
theorem nop : Statement .nop := ⟨_, opcodeTable_rowE 10, rfl, rfl, rfl, fun _ => rfl⟩
theorem laxIzx (b : Byte) : Statement (.laxIzx b) := ⟨_, opcodeTable_rowA 3, rfl, rfl, rfl, fun _ => rfl⟩
theorem laxZp (b : Byte) : Statement (.laxZp b) := ⟨_, opcodeTable_rowA 7, rfl, rfl, rfl, fun _ => rfl⟩
theorem laxAbs (a : Word) : Statement (.laxAbs a) := ⟨_, opcodeTable_rowA 15, rfl, rfl, rfl, completeWord _ a⟩
theorem laxIzy (b : Byte) : Statement (.laxIzy b) := ⟨_, opcodeTable_rowB 3, rfl, rfl, rfl, fun _ => rfl⟩
theorem laxZpy (b : Byte) : Statement (.laxZpy b) := ⟨_, opcodeTable_rowB 7, rfl, rfl, rfl, fun _ => rfl⟩
theorem laxAby (a : Word) : Statement (.laxAby a) := ⟨_, opcodeTable_rowB 15, rfl, rfl, rfl, completeWord _ a⟩
theorem saxIzx (b : Byte) : Statement (.saxIzx b) := ⟨_, opcodeTable_row8 3, rfl, rfl, rfl, fun _ => rfl⟩
theorem saxZp (b : Byte) : Statement (.saxZp b) := ⟨_, opcodeTable_row8 7, rfl, rfl, rfl, fun _ => rfl⟩
theorem saxAbs (a : Word) : Statement (.saxAbs a) := ⟨_, opcodeTable_row8 15, rfl, rfl, rfl, completeWord _ a⟩
theorem saxZpy (b : Byte) : Statement (.saxZpy b) := ⟨_, opcodeTable_row9 7, rfl, rfl, rfl, fun _ => rfl⟩
theorem sloIzx (b : Byte) : Statement (.sloIzx b) := ⟨_, opcodeTable_row0 3, rfl, rfl, rfl, fun _ => rfl⟩
theorem sloZp (b : Byte) : Statement (.sloZp b) := ⟨_, opcodeTable_row0 7, rfl, rfl, rfl, fun _ => rfl⟩
theorem sloAbs (a : Word) : Statement (.sloAbs a) := ⟨_, opcodeTable_row0 15, rfl, rfl, rfl, completeWord _ a⟩
theorem sloIzy (b : Byte) : Statement (.sloIzy b) := ⟨_, opcodeTable_row1 3, rfl, rfl, rfl, fun _ => rfl⟩
theorem sloZpx (b : Byte) : Statement (.sloZpx b) := ⟨_, opcodeTable_row1 7, rfl, rfl, rfl, fun _ => rfl⟩
theorem sloAby (a : Word) : Statement (.sloAby a) := ⟨_, opcodeTable_row1 11, rfl, rfl, rfl, completeWord _ a⟩
theorem sloAbx (a : Word) : Statement (.sloAbx a) := ⟨_, opcodeTable_row1 15, rfl, rfl, rfl, completeWord _ a⟩
theorem rlaIzx (b : Byte) : Statement (.rlaIzx b) := ⟨_, opcodeTable_row2 3, rfl, rfl, rfl, fun _ => rfl⟩
theorem rlaZp (b : Byte) : Statement (.rlaZp b) := ⟨_, opcodeTable_row2 7, rfl, rfl, rfl, fun _ => rfl⟩
theorem rlaAbs (a : Word) : Statement (.rlaAbs a) := ⟨_, opcodeTable_row2 15, rfl, rfl, rfl, completeWord _ a⟩
theorem rlaIzy (b : Byte) : Statement (.rlaIzy b) := ⟨_, opcodeTable_row3 3, rfl, rfl, rfl, fun _ => rfl⟩
theorem rlaZpx (b : Byte) : Statement (.rlaZpx b) := ⟨_, opcodeTable_row3 7, rfl, rfl, rfl, fun _ => rfl⟩
theorem rlaAby (a : Word) : Statement (.rlaAby a) := ⟨_, opcodeTable_row3 11, rfl, rfl, rfl, completeWord _ a⟩
theorem rlaAbx (a : Word) : Statement (.rlaAbx a) := ⟨_, opcodeTable_row3 15, rfl, rfl, rfl, completeWord _ a⟩
theorem sreIzx (b : Byte) : Statement (.sreIzx b) := ⟨_, opcodeTable_row4 3, rfl, rfl, rfl, fun _ => rfl⟩
theorem sreZp (b : Byte) : Statement (.sreZp b) := ⟨_, opcodeTable_row4 7, rfl, rfl, rfl, fun _ => rfl⟩
theorem sreAbs (a : Word) : Statement (.sreAbs a) := ⟨_, opcodeTable_row4 15, rfl, rfl, rfl, completeWord _ a⟩
theorem sreIzy (b : Byte) : Statement (.sreIzy b) := ⟨_, opcodeTable_row5 3, rfl, rfl, rfl, fun _ => rfl⟩
theorem sreZpx (b : Byte) : Statement (.sreZpx b) := ⟨_, opcodeTable_row5 7, rfl, rfl, rfl, fun _ => rfl⟩
theorem sreAby (a : Word) : Statement (.sreAby a) := ⟨_, opcodeTable_row5 11, rfl, rfl, rfl, completeWord _ a⟩
theorem sreAbx (a : Word) : Statement (.sreAbx a) := ⟨_, opcodeTable_row5 15, rfl, rfl, rfl, completeWord _ a⟩
theorem rraIzx (b : Byte) : Statement (.rraIzx b) := ⟨_, opcodeTable_row6 3, rfl, rfl, rfl, fun _ => rfl⟩
theorem rraZp (b : Byte) : Statement (.rraZp b) := ⟨_, opcodeTable_row6 7, rfl, rfl, rfl, fun _ => rfl⟩
theorem rraAbs (a : Word) : Statement (.rraAbs a) := ⟨_, opcodeTable_row6 15, rfl, rfl, rfl, completeWord _ a⟩
theorem rraIzy (b : Byte) : Statement (.rraIzy b) := ⟨_, opcodeTable_row7 3, rfl, rfl, rfl, fun _ => rfl⟩
theorem rraZpx (b : Byte) : Statement (.rraZpx b) := ⟨_, opcodeTable_row7 7, rfl, rfl, rfl, fun _ => rfl⟩
theorem rraAby (a : Word) : Statement (.rraAby a) := ⟨_, opcodeTable_row7 11, rfl, rfl, rfl, completeWord _ a⟩
theorem rraAbx (a : Word) : Statement (.rraAbx a) := ⟨_, opcodeTable_row7 15, rfl, rfl, rfl, completeWord _ a⟩
theorem dcpIzx (b : Byte) : Statement (.dcpIzx b) := ⟨_, opcodeTable_rowC 3, rfl, rfl, rfl, fun _ => rfl⟩
theorem dcpZp (b : Byte) : Statement (.dcpZp b) := ⟨_, opcodeTable_rowC 7, rfl, rfl, rfl, fun _ => rfl⟩
theorem dcpAbs (a : Word) : Statement (.dcpAbs a) := ⟨_, opcodeTable_rowC 15, rfl, rfl, rfl, completeWord _ a⟩
theorem dcpIzy (b : Byte) : Statement (.dcpIzy b) := ⟨_, opcodeTable_rowD 3, rfl, rfl, rfl, fun _ => rfl⟩
theorem dcpZpx (b : Byte) : Statement (.dcpZpx b) := ⟨_, opcodeTable_rowD 7, rfl, rfl, rfl, fun _ => rfl⟩
theorem dcpAby (a : Word) : Statement (.dcpAby a) := ⟨_, opcodeTable_rowD 11, rfl, rfl, rfl, completeWord _ a⟩
theorem dcpAbx (a : Word) : Statement (.dcpAbx a) := ⟨_, opcodeTable_rowD 15, rfl, rfl, rfl, completeWord _ a⟩
theorem isbIzx (b : Byte) : Statement (.isbIzx b) := ⟨_, opcodeTable_rowE 3, rfl, rfl, rfl, fun _ => rfl⟩
theorem isbZp (b : Byte) : Statement (.isbZp b) := ⟨_, opcodeTable_rowE 7, rfl, rfl, rfl, fun _ => rfl⟩
theorem isbAbs (a : Word) : Statement (.isbAbs a) := ⟨_, opcodeTable_rowE 15, rfl, rfl, rfl, completeWord _ a⟩
theorem isbIzy (b : Byte) : Statement (.isbIzy b) := ⟨_, opcodeTable_rowF 3, rfl, rfl, rfl, fun _ => rfl⟩
theorem isbZpx (b : Byte) : Statement (.isbZpx b) := ⟨_, opcodeTable_rowF 7, rfl, rfl, rfl, fun _ => rfl⟩
theorem isbAby (a : Word) : Statement (.isbAby a) := ⟨_, opcodeTable_rowF 11, rfl, rfl, rfl, completeWord _ a⟩
theorem isbAbx (a : Word) : Statement (.isbAbx a) := ⟨_, opcodeTable_rowF 15, rfl, rfl, rfl, completeWord _ a⟩
theorem nopZp04 (b : Byte) : Statement (.nopZp04 b) := ⟨_, opcodeTable_row0 4, rfl, rfl, rfl, fun _ => rfl⟩
theorem nopAbs0C (a : Word) : Statement (.nopAbs0C a) := ⟨_, opcodeTable_row0 12, rfl, rfl, rfl, completeWord _ a⟩
theorem nopZpx14 (b : Byte) : Statement (.nopZpx14 b) := ⟨_, opcodeTable_row1 4, rfl, rfl, rfl, fun _ => rfl⟩
theorem nopImp1A : Statement .nopImp1A := ⟨_, opcodeTable_row1 10, rfl, rfl, rfl, fun _ => rfl⟩
theorem nopAbx1C (a : Word) : Statement (.nopAbx1C a) := ⟨_, opcodeTable_row1 12, rfl, rfl, rfl, completeWord _ a⟩
theorem nopZpx34 (b : Byte) : Statement (.nopZpx34 b) := ⟨_, opcodeTable_row3 4, rfl, rfl, rfl, fun _ => rfl⟩
theorem nopImp3A : Statement .nopImp3A := ⟨_, opcodeTable_row3 10, rfl, rfl, rfl, fun _ => rfl⟩
theorem nopAbx3C (a : Word) : Statement (.nopAbx3C a) := ⟨_, opcodeTable_row3 12, rfl, rfl, rfl, completeWord _ a⟩
theorem nopZp44 (b : Byte) : Statement (.nopZp44 b) := ⟨_, opcodeTable_row4 4, rfl, rfl, rfl, fun _ => rfl⟩
theorem nopZpx54 (b : Byte) : Statement (.nopZpx54 b) := ⟨_, opcodeTable_row5 4, rfl, rfl, rfl, fun _ => rfl⟩
theorem nopImp5A : Statement .nopImp5A := ⟨_, opcodeTable_row5 10, rfl, rfl, rfl, fun _ => rfl⟩
theorem nopAbx5C (a : Word) : Statement (.nopAbx5C a) := ⟨_, opcodeTable_row5 12, rfl, rfl, rfl, completeWord _ a⟩
theorem nopZp64 (b : Byte) : Statement (.nopZp64 b) := ⟨_, opcodeTable_row6 4, rfl, rfl, rfl, fun _ => rfl⟩
theorem nopZpx74 (b : Byte) : Statement (.nopZpx74 b) := ⟨_, opcodeTable_row7 4, rfl, rfl, rfl, fun _ => rfl⟩
theorem nopImp7A : Statement .nopImp7A := ⟨_, opcodeTable_row7 10, rfl, rfl, rfl, fun _ => rfl⟩
theorem nopAbx7C (a : Word) : Statement (.nopAbx7C a) := ⟨_, opcodeTable_row7 12, rfl, rfl, rfl, completeWord _ a⟩
theorem nopImm80 (b : Byte) : Statement (.nopImm80 b) := ⟨_, opcodeTable_row8 0, rfl, rfl, rfl, fun _ => rfl⟩
theorem nopImm82 (b : Byte) : Statement (.nopImm82 b) := ⟨_, opcodeTable_row8 2, rfl, rfl, rfl, fun _ => rfl⟩
theorem nopImm89 (b : Byte) : Statement (.nopImm89 b) := ⟨_, opcodeTable_row8 9, rfl, rfl, rfl, fun _ => rfl⟩
theorem nopImmC2 (b : Byte) : Statement (.nopImmC2 b) := ⟨_, opcodeTable_rowC 2, rfl, rfl, rfl, fun _ => rfl⟩
theorem nopZpxD4 (b : Byte) : Statement (.nopZpxD4 b) := ⟨_, opcodeTable_rowD 4, rfl, rfl, rfl, fun _ => rfl⟩
theorem nopImpDA : Statement .nopImpDA := ⟨_, opcodeTable_rowD 10, rfl, rfl, rfl, fun _ => rfl⟩
theorem nopAbxDC (a : Word) : Statement (.nopAbxDC a) := ⟨_, opcodeTable_rowD 12, rfl, rfl, rfl, completeWord _ a⟩
theorem nopImmE2 (b : Byte) : Statement (.nopImmE2 b) := ⟨_, opcodeTable_rowE 2, rfl, rfl, rfl, fun _ => rfl⟩
theorem sbcImmEB (b : Byte) : Statement (.sbcImmEB b) := ⟨_, opcodeTable_rowE 11, rfl, rfl, rfl, fun _ => rfl⟩
theorem nopZpxF4 (b : Byte) : Statement (.nopZpxF4 b) := ⟨_, opcodeTable_rowF 4, rfl, rfl, rfl, fun _ => rfl⟩
theorem nopImpFA : Statement .nopImpFA := ⟨_, opcodeTable_rowF 10, rfl, rfl, rfl, fun _ => rfl⟩
theorem nopAbxFC (a : Word) : Statement (.nopAbxFC a) := ⟨_, opcodeTable_rowF 12, rfl, rfl, rfl, completeWord _ a⟩

end Sys2Proof.Laws.Encoding
end

