-- ==== Sys2Proof/Tests/Slice0.lean ====
section
/-! SUPPORT. The model's own tests. A step test is one vector of spec/95_test_vectors.md, whose expected values are the
spec's; a decode test's words are written out from the matrix of R91 with the operand bytes 34 12. The witnesses at the
end show, for each statement with hypotheses, a state and operands that meet them together. -/

namespace Sys2Proof.Tests

open Sys2Proof Sys2Proof.Machine Sys2Proof.Claims

/-! ### Helpers -/

/-- The registers a vector of 95_test_vectors.md lists, PC first. -/
structure Regs where
  pc : Word
  a : Byte
  x : Byte
  y : Byte
  sp : Byte
  p : Byte
  deriving DecidableEq, Repr

def regsOf (s : State) : Regs := ⟨s.pc, s.a, s.x, s.y, s.sp, s.p⟩

/-- The start of a vector: the registers as listed, the memory bytes listed, the instruction's bytes at PC, all other
memory 0x00, `PRG_UNITS` 1. -/
def start (r : Regs) (ext : Bool) (mem : List (Word × Byte)) (bytes : List Byte) : State :=
  let s := { State.reset with pc := r.pc, a := r.a, x := r.x, y := r.y, sp := r.sp, p := r.p, extUndoc := ext }
  (mem.foldl (fun t c => t.loadByte c.1 c.2) s).loadBytes r.pc bytes

def next? : Host.Outcome State Fault Refusal → Option State
  | .next s => some s
  | .fault _ | .refused _ => none

/-- The registers one step leaves, and the bytes it leaves at the addresses given. -/
def after (s : State) (addrs : List Word) : Option (Regs × List (Option Byte)) :=
  (next? (step s)).map fun t => (regsOf t, addrs.map t.read)

/-- The fault one step raises, and the registers it leaves; none unless the state left has that fault latched. -/
def faultAfter (s : State) : Option (FaultRecord × Regs) :=
  match step s with
  | .fault (.decodeError op pc left) =>
    if left.fault = some (.decodeError op pc) then some (.decodeError op pc, regsOf left) else none
  | .fault (.addressingError addr kind left) =>
    if left.fault = some (.addressingError addr kind) then some (.addressingError addr kind, regsOf left) else none
  | .fault (.configurationError _ _) | .next _ | .refused _ => none

/-- Each word decodes to its instruction and to nothing more, the instruction is well formed and encodes to the word;
the opcodes listed after them are rejected. -/
def rowDecodes (words : List (List Byte × Instr)) (undefineds : List Byte) : Bool :=
  words.all (fun e => decode e.2.optional e.1 == .decoded e.2 [] && e.2.wellFormed e.2.optional && encode e.2 == e.1) &&
  undefineds.all (fun op => decode true [op, 0, 0] == .rejected (.undefinedOpcode op))

/-! ### Well-formedness -/

/-- An optional opcode is ill formed where `EXT_UNDOC` is false (R89); the check is WellFormed's only one. -/
theorem test_optional_is_ill_formed_without_ext : Instr.wellFormed false (.nopImp1A) = false := by decide

theorem test_optional_sbc_is_ill_formed_without_ext : Instr.wellFormed false (.sbcImmEB 0x01) = false := by decide

theorem test_base_is_well_formed : Instr.wellFormed false (.sbcImm 0x01) = true := by decide

/-! ### Decoding and encoding: every row of the table, from the matrix of R91 -/

theorem test_decode_row_0 : rowDecodes
    [([0x00], .brk), ([0x01, 0x34], .oraIzx 0x34), ([0x03, 0x34], .sloIzx 0x34),
     ([0x04, 0x34], .nopZp04 0x34), ([0x05, 0x34], .oraZp 0x34), ([0x06, 0x34], .aslZp 0x34),
     ([0x07, 0x34], .sloZp 0x34), ([0x08], .php), ([0x09, 0x34], .oraImm 0x34),
     ([0x0A], .aslAcc), ([0x0C, 0x34, 0x12], .nopAbs0C 0x1234), ([0x0D, 0x34, 0x12], .oraAbs 0x1234),
     ([0x0E, 0x34, 0x12], .aslAbs 0x1234), ([0x0F, 0x34, 0x12], .sloAbs 0x1234)]
    [0x02, 0x0B] = true := by decide

theorem test_decode_row_1 : rowDecodes
    [([0x10, 0x34], .bpl 0x34), ([0x11, 0x34], .oraIzy 0x34), ([0x13, 0x34], .sloIzy 0x34),
     ([0x14, 0x34], .nopZpx14 0x34), ([0x15, 0x34], .oraZpx 0x34), ([0x16, 0x34], .aslZpx 0x34),
     ([0x17, 0x34], .sloZpx 0x34), ([0x18], .clc), ([0x19, 0x34, 0x12], .oraAby 0x1234),
     ([0x1A], .nopImp1A), ([0x1B, 0x34, 0x12], .sloAby 0x1234), ([0x1C, 0x34, 0x12], .nopAbx1C 0x1234),
     ([0x1D, 0x34, 0x12], .oraAbx 0x1234), ([0x1E, 0x34, 0x12], .aslAbx 0x1234), ([0x1F, 0x34, 0x12], .sloAbx 0x1234)]
    [0x12] = true := by decide

theorem test_decode_row_2 : rowDecodes
    [([0x20, 0x34, 0x12], .jsr 0x1234), ([0x21, 0x34], .andIzx 0x34), ([0x23, 0x34], .rlaIzx 0x34),
     ([0x24, 0x34], .bitZp 0x34), ([0x25, 0x34], .andZp 0x34), ([0x26, 0x34], .rolZp 0x34),
     ([0x27, 0x34], .rlaZp 0x34), ([0x28], .plp), ([0x29, 0x34], .andImm 0x34),
     ([0x2A], .rolAcc), ([0x2C, 0x34, 0x12], .bitAbs 0x1234), ([0x2D, 0x34, 0x12], .andAbs 0x1234),
     ([0x2E, 0x34, 0x12], .rolAbs 0x1234), ([0x2F, 0x34, 0x12], .rlaAbs 0x1234)]
    [0x22, 0x2B] = true := by decide

theorem test_decode_row_3 : rowDecodes
    [([0x30, 0x34], .bmi 0x34), ([0x31, 0x34], .andIzy 0x34), ([0x33, 0x34], .rlaIzy 0x34),
     ([0x34, 0x34], .nopZpx34 0x34), ([0x35, 0x34], .andZpx 0x34), ([0x36, 0x34], .rolZpx 0x34),
     ([0x37, 0x34], .rlaZpx 0x34), ([0x38], .sec), ([0x39, 0x34, 0x12], .andAby 0x1234),
     ([0x3A], .nopImp3A), ([0x3B, 0x34, 0x12], .rlaAby 0x1234), ([0x3C, 0x34, 0x12], .nopAbx3C 0x1234),
     ([0x3D, 0x34, 0x12], .andAbx 0x1234), ([0x3E, 0x34, 0x12], .rolAbx 0x1234), ([0x3F, 0x34, 0x12], .rlaAbx 0x1234)]
    [0x32] = true := by decide

theorem test_decode_row_4 : rowDecodes
    [([0x40], .rti), ([0x41, 0x34], .eorIzx 0x34), ([0x43, 0x34], .sreIzx 0x34),
     ([0x44, 0x34], .nopZp44 0x34), ([0x45, 0x34], .eorZp 0x34), ([0x46, 0x34], .lsrZp 0x34),
     ([0x47, 0x34], .sreZp 0x34), ([0x48], .pha), ([0x49, 0x34], .eorImm 0x34),
     ([0x4A], .lsrAcc), ([0x4C, 0x34, 0x12], .jmpAbs 0x1234), ([0x4D, 0x34, 0x12], .eorAbs 0x1234),
     ([0x4E, 0x34, 0x12], .lsrAbs 0x1234), ([0x4F, 0x34, 0x12], .sreAbs 0x1234)]
    [0x42, 0x4B] = true := by decide

theorem test_decode_row_5 : rowDecodes
    [([0x50, 0x34], .bvc 0x34), ([0x51, 0x34], .eorIzy 0x34), ([0x53, 0x34], .sreIzy 0x34),
     ([0x54, 0x34], .nopZpx54 0x34), ([0x55, 0x34], .eorZpx 0x34), ([0x56, 0x34], .lsrZpx 0x34),
     ([0x57, 0x34], .sreZpx 0x34), ([0x58], .cli), ([0x59, 0x34, 0x12], .eorAby 0x1234),
     ([0x5A], .nopImp5A), ([0x5B, 0x34, 0x12], .sreAby 0x1234), ([0x5C, 0x34, 0x12], .nopAbx5C 0x1234),
     ([0x5D, 0x34, 0x12], .eorAbx 0x1234), ([0x5E, 0x34, 0x12], .lsrAbx 0x1234), ([0x5F, 0x34, 0x12], .sreAbx 0x1234)]
    [0x52] = true := by decide

theorem test_decode_row_6 : rowDecodes
    [([0x60], .rts), ([0x61, 0x34], .adcIzx 0x34), ([0x63, 0x34], .rraIzx 0x34),
     ([0x64, 0x34], .nopZp64 0x34), ([0x65, 0x34], .adcZp 0x34), ([0x66, 0x34], .rorZp 0x34),
     ([0x67, 0x34], .rraZp 0x34), ([0x68], .pla), ([0x69, 0x34], .adcImm 0x34),
     ([0x6A], .rorAcc), ([0x6C, 0x34, 0x12], .jmpInd 0x1234), ([0x6D, 0x34, 0x12], .adcAbs 0x1234),
     ([0x6E, 0x34, 0x12], .rorAbs 0x1234), ([0x6F, 0x34, 0x12], .rraAbs 0x1234)]
    [0x62, 0x6B] = true := by decide

theorem test_decode_row_7 : rowDecodes
    [([0x70, 0x34], .bvs 0x34), ([0x71, 0x34], .adcIzy 0x34), ([0x73, 0x34], .rraIzy 0x34),
     ([0x74, 0x34], .nopZpx74 0x34), ([0x75, 0x34], .adcZpx 0x34), ([0x76, 0x34], .rorZpx 0x34),
     ([0x77, 0x34], .rraZpx 0x34), ([0x78], .sei), ([0x79, 0x34, 0x12], .adcAby 0x1234),
     ([0x7A], .nopImp7A), ([0x7B, 0x34, 0x12], .rraAby 0x1234), ([0x7C, 0x34, 0x12], .nopAbx7C 0x1234),
     ([0x7D, 0x34, 0x12], .adcAbx 0x1234), ([0x7E, 0x34, 0x12], .rorAbx 0x1234), ([0x7F, 0x34, 0x12], .rraAbx 0x1234)]
    [0x72] = true := by decide

theorem test_decode_row_8 : rowDecodes
    [([0x80, 0x34], .nopImm80 0x34), ([0x81, 0x34], .staIzx 0x34), ([0x82, 0x34], .nopImm82 0x34),
     ([0x83, 0x34], .saxIzx 0x34), ([0x84, 0x34], .styZp 0x34), ([0x85, 0x34], .staZp 0x34),
     ([0x86, 0x34], .stxZp 0x34), ([0x87, 0x34], .saxZp 0x34), ([0x88], .dey),
     ([0x89, 0x34], .nopImm89 0x34), ([0x8A], .txa), ([0x8C, 0x34, 0x12], .styAbs 0x1234),
     ([0x8D, 0x34, 0x12], .staAbs 0x1234), ([0x8E, 0x34, 0x12], .stxAbs 0x1234), ([0x8F, 0x34, 0x12], .saxAbs 0x1234)]
    [0x8B] = true := by decide

theorem test_decode_row_9 : rowDecodes
    [([0x90, 0x34], .bcc 0x34), ([0x91, 0x34], .staIzy 0x34), ([0x94, 0x34], .styZpx 0x34),
     ([0x95, 0x34], .staZpx 0x34), ([0x96, 0x34], .stxZpy 0x34), ([0x97, 0x34], .saxZpy 0x34),
     ([0x98], .tya), ([0x99, 0x34, 0x12], .staAby 0x1234), ([0x9A], .txs),
     ([0x9D, 0x34, 0x12], .staAbx 0x1234)]
    [0x92, 0x93, 0x9B, 0x9C, 0x9E, 0x9F] = true := by decide

theorem test_decode_row_A : rowDecodes
    [([0xA0, 0x34], .ldyImm 0x34), ([0xA1, 0x34], .ldaIzx 0x34), ([0xA2, 0x34], .ldxImm 0x34),
     ([0xA3, 0x34], .laxIzx 0x34), ([0xA4, 0x34], .ldyZp 0x34), ([0xA5, 0x34], .ldaZp 0x34),
     ([0xA6, 0x34], .ldxZp 0x34), ([0xA7, 0x34], .laxZp 0x34), ([0xA8], .tay),
     ([0xA9, 0x34], .ldaImm 0x34), ([0xAA], .tax), ([0xAC, 0x34, 0x12], .ldyAbs 0x1234),
     ([0xAD, 0x34, 0x12], .ldaAbs 0x1234), ([0xAE, 0x34, 0x12], .ldxAbs 0x1234), ([0xAF, 0x34, 0x12], .laxAbs 0x1234)]
    [0xAB] = true := by decide

theorem test_decode_row_B : rowDecodes
    [([0xB0, 0x34], .bcs 0x34), ([0xB1, 0x34], .ldaIzy 0x34), ([0xB3, 0x34], .laxIzy 0x34),
     ([0xB4, 0x34], .ldyZpx 0x34), ([0xB5, 0x34], .ldaZpx 0x34), ([0xB6, 0x34], .ldxZpy 0x34),
     ([0xB7, 0x34], .laxZpy 0x34), ([0xB8], .clv), ([0xB9, 0x34, 0x12], .ldaAby 0x1234),
     ([0xBA], .tsx), ([0xBC, 0x34, 0x12], .ldyAbx 0x1234), ([0xBD, 0x34, 0x12], .ldaAbx 0x1234),
     ([0xBE, 0x34, 0x12], .ldxAby 0x1234), ([0xBF, 0x34, 0x12], .laxAby 0x1234)]
    [0xB2, 0xBB] = true := by decide

theorem test_decode_row_C : rowDecodes
    [([0xC0, 0x34], .cpyImm 0x34), ([0xC1, 0x34], .cmpIzx 0x34), ([0xC2, 0x34], .nopImmC2 0x34),
     ([0xC3, 0x34], .dcpIzx 0x34), ([0xC4, 0x34], .cpyZp 0x34), ([0xC5, 0x34], .cmpZp 0x34),
     ([0xC6, 0x34], .decZp 0x34), ([0xC7, 0x34], .dcpZp 0x34), ([0xC8], .iny),
     ([0xC9, 0x34], .cmpImm 0x34), ([0xCA], .dex), ([0xCC, 0x34, 0x12], .cpyAbs 0x1234),
     ([0xCD, 0x34, 0x12], .cmpAbs 0x1234), ([0xCE, 0x34, 0x12], .decAbs 0x1234), ([0xCF, 0x34, 0x12], .dcpAbs 0x1234)]
    [0xCB] = true := by decide

theorem test_decode_row_D : rowDecodes
    [([0xD0, 0x34], .bne 0x34), ([0xD1, 0x34], .cmpIzy 0x34), ([0xD3, 0x34], .dcpIzy 0x34),
     ([0xD4, 0x34], .nopZpxD4 0x34), ([0xD5, 0x34], .cmpZpx 0x34), ([0xD6, 0x34], .decZpx 0x34),
     ([0xD7, 0x34], .dcpZpx 0x34), ([0xD8], .cld), ([0xD9, 0x34, 0x12], .cmpAby 0x1234),
     ([0xDA], .nopImpDA), ([0xDB, 0x34, 0x12], .dcpAby 0x1234), ([0xDC, 0x34, 0x12], .nopAbxDC 0x1234),
     ([0xDD, 0x34, 0x12], .cmpAbx 0x1234), ([0xDE, 0x34, 0x12], .decAbx 0x1234), ([0xDF, 0x34, 0x12], .dcpAbx 0x1234)]
    [0xD2] = true := by decide

theorem test_decode_row_E : rowDecodes
    [([0xE0, 0x34], .cpxImm 0x34), ([0xE1, 0x34], .sbcIzx 0x34), ([0xE2, 0x34], .nopImmE2 0x34),
     ([0xE3, 0x34], .isbIzx 0x34), ([0xE4, 0x34], .cpxZp 0x34), ([0xE5, 0x34], .sbcZp 0x34),
     ([0xE6, 0x34], .incZp 0x34), ([0xE7, 0x34], .isbZp 0x34), ([0xE8], .inx),
     ([0xE9, 0x34], .sbcImm 0x34), ([0xEA], .nop), ([0xEB, 0x34], .sbcImmEB 0x34),
     ([0xEC, 0x34, 0x12], .cpxAbs 0x1234), ([0xED, 0x34, 0x12], .sbcAbs 0x1234), ([0xEE, 0x34, 0x12], .incAbs 0x1234),
     ([0xEF, 0x34, 0x12], .isbAbs 0x1234)]
    [] = true := by decide

theorem test_decode_row_F : rowDecodes
    [([0xF0, 0x34], .beq 0x34), ([0xF1, 0x34], .sbcIzy 0x34), ([0xF3, 0x34], .isbIzy 0x34),
     ([0xF4, 0x34], .nopZpxF4 0x34), ([0xF5, 0x34], .sbcZpx 0x34), ([0xF6, 0x34], .incZpx 0x34),
     ([0xF7, 0x34], .isbZpx 0x34), ([0xF8], .sed), ([0xF9, 0x34, 0x12], .sbcAby 0x1234),
     ([0xFA], .nopImpFA), ([0xFB, 0x34, 0x12], .isbAby 0x1234), ([0xFC, 0x34, 0x12], .nopAbxFC 0x1234),
     ([0xFD, 0x34, 0x12], .sbcAbx 0x1234), ([0xFE, 0x34, 0x12], .incAbx 0x1234), ([0xFF, 0x34, 0x12], .isbAbx 0x1234)]
    [0xF2] = true := by decide

theorem test_optional_opcode_is_rejected_without_ext :
    decode false [0x1A] = .rejected (.undefinedOpcode 0x1A) := by decide

theorem test_truncated_word_is_rejected : decode false [0xAD, 0x34] = .rejected .truncated := by decide

/-- LDA absolute, F3, as one number: opcode in bits 7..0, low address byte in bits 15..8, high in 23..16. -/
theorem test_table_word_absolute : decodeTableWord 24 0x1234AD = some (.ldaAbs 0x1234) := by decide

/-- A row whose operand bits the table leaves out: they are zero. -/
theorem test_table_word_without_operand_bits : decodeTableWord 8 0xAD = some (.ldaAbs 0x0000) := by decide

theorem test_table_word_optional : decodeTableWord 16 0x55EB = some (.sbcImmEB 0x55) := by decide

theorem test_table_word_undefined : decodeTableWord 8 0x02 = none := by decide

/-! ### The disassembler (R95) -/

theorem test_disasm_absolute_x : disasmChars false 0xBD 0xFF 0x02 =
    (['L', 'D', 'A', ' ', '$', '0', '2', 'F', 'F', ',', 'X'], 3) := by decide

theorem test_disasm_relative : disasmChars false 0xD0 0xF9 0x00 =
    (['B', 'N', 'E', ' ', '$', 'F', '9', ' ', '(', '+', 'P', 'C', ')'], 2) := by decide

theorem test_disasm_indirect_y : disasmChars false 0xB1 0x20 0x00 =
    (['L', 'D', 'A', ' ', '(', '$', '2', '0', ')', ',', 'Y'], 2) := by decide

/-! ### From reset -/

/-- The state after reset is what the initialisation of R300 builds, from a one-unit cartridge of zeros (R36). -/
theorem test_reset_is_the_default_launch :
    launch ⟨[], 1, [], 0, 0, false, false, false, false⟩ [] [] none false = .machine State.reset := by decide

/-- The instruction `withFetchWord` places is the one the next step runs. -/
theorem test_with_fetch_word : (next? (step (State.reset.withFetchWord 16 0x80A9))).map regsOf =
    some ⟨0x0002, 0x80, 0x00, 0x00, 0xFD, 0xB4⟩ := by decide

/-- An optional opcode too. -/
theorem test_with_fetch_word_optional : (next? (step (State.reset.withFetchWord 16 0x55EB))).map regsOf =
    some ⟨0x0002, 0xAA, 0x00, 0x00, 0xFD, 0xB4⟩ := by decide

/-- A fault is terminal (R274): the state it leaves faults again, unchanged. -/
theorem test_fault_is_terminal : faultAfter (start ⟨0x2000, 0, 0, 0, 0xFD, 0x34⟩ false [] []) =
      some (.addressingError 0x2000 .read, ⟨0x2000, 0, 0, 0, 0xFD, 0x34⟩) ∧
    faultAfter ((start ⟨0x2000, 0, 0, 0, 0xFD, 0x34⟩ false [] []).setFault (some (.addressingError 0x2000 .read))) =
      some (.addressingError 0x2000 .read, ⟨0x2000, 0, 0, 0, 0xFD, 0x34⟩) := by decide

/-! ### One step of each instruction: vectors of 95_test_vectors.md -/

theorem test_jmp_indirect_page_bug : after (start ⟨0x8000, 0x00, 0x00, 0x00, 0xFD, 0x34⟩ false [(0x02FF, 0x34), (0x0200, 0x80), (0x0300, 0x90)] [0x6C, 0xFF, 0x02])
    [] = some (⟨0x8034, 0x00, 0x00, 0x00, 0xFD, 0x34⟩, []) := by decide  -- JMP ($02FF)

theorem test_ldx_zero_page_y_wraps : after (start ⟨0x8000, 0x00, 0x00, 0x20, 0xFD, 0x34⟩ false [(0x0010, 0x66), (0x0110, 0x55)] [0xB6, 0xF0])
    [] = some (⟨0x8002, 0x00, 0x66, 0x20, 0xFD, 0x34⟩, []) := by decide  -- LDX $F0,Y

theorem test_lda_pointer_wraps_in_zero_page : after (start ⟨0x8000, 0x00, 0x01, 0x00, 0xFD, 0x34⟩ false [(0x00FF, 0x00), (0x0000, 0x03), (0x0100, 0x07), (0x0300, 0x5B), (0x0700, 0x11)] [0xA1, 0xFE])
    [] = some (⟨0x8002, 0x5B, 0x01, 0x00, 0xFD, 0x34⟩, []) := by decide  -- LDA ($FE,X)

theorem test_lda_indirect_y_wraps : after (start ⟨0x8000, 0x00, 0x00, 0x01, 0xFD, 0x34⟩ false [(0x00FF, 0xFF), (0x0000, 0x02), (0x0100, 0x06), (0x0300, 0x5D), (0x0700, 0x11)] [0xB1, 0xFF])
    [] = some (⟨0x8002, 0x5D, 0x00, 0x01, 0xFD, 0x34⟩, []) := by decide  -- LDA ($FF),Y

theorem test_jmp_absolute : after (start ⟨0x8000, 0x00, 0x00, 0x00, 0xFD, 0x34⟩ false [] [0x4C, 0x34, 0x12])
    [] = some (⟨0x1234, 0x00, 0x00, 0x00, 0xFD, 0x34⟩, []) := by decide  -- JMP $1234

theorem test_bne_backward : after (start ⟨0x8000, 0x00, 0x00, 0x00, 0xFD, 0x34⟩ false [] [0xD0, 0x80])
    [] = some (⟨0x7F82, 0x00, 0x00, 0x00, 0xFD, 0x34⟩, []) := by decide  -- BNE $80 (+PC)

theorem test_ldy_keeps_carry : after (start ⟨0x8000, 0x00, 0x00, 0x00, 0xFD, 0xB6⟩ false [] [0xA0, 0x7F])
    [] = some (⟨0x8002, 0x00, 0x00, 0x7F, 0xFD, 0x34⟩, []) := by decide  -- LDY #$7F

theorem test_sta_rom_is_lost : after (start ⟨0x8000, 0x77, 0x00, 0x00, 0xFD, 0x34⟩ false [] [0x8D, 0x00, 0x80])
    [0x8000] = some (⟨0x8003, 0x77, 0x00, 0x00, 0xFD, 0x34⟩, [some 0x8D]) := by decide  -- STA $8000

theorem test_sta_indexed_indirect : after (start ⟨0x8000, 0x3D, 0x04, 0x00, 0xFD, 0x34⟩ false [(0x0024, 0x00), (0x0025, 0x03)] [0x81, 0x20])
    [0x0300] = some (⟨0x8002, 0x3D, 0x04, 0x00, 0xFD, 0x34⟩, [some 0x3D]) := by decide  -- STA ($20,X)

theorem test_stx_zero_page_y_wraps : after (start ⟨0x8000, 0x00, 0x80, 0x02, 0xFD, 0x34⟩ false [] [0x96, 0xFF])
    [0x0001, 0x0101] = some (⟨0x8002, 0x00, 0x80, 0x02, 0xFD, 0x34⟩, [some 0x80, some 0x00]) := by decide  -- STX $FF,Y

theorem test_sty : after (start ⟨0x8000, 0x00, 0x00, 0x81, 0xFD, 0x34⟩ false [] [0x84, 0x10])
    [0x0010] = some (⟨0x8002, 0x00, 0x00, 0x81, 0xFD, 0x34⟩, [some 0x81]) := by decide  -- STY $10

theorem test_tax : after (start ⟨0x8000, 0x80, 0x00, 0x00, 0xFD, 0x34⟩ false [] [0xAA])
    [] = some (⟨0x8001, 0x80, 0x80, 0x00, 0xFD, 0xB4⟩, []) := by decide  -- TAX

theorem test_tay : after (start ⟨0x8000, 0x00, 0x00, 0x01, 0xFD, 0x34⟩ false [] [0xA8])
    [] = some (⟨0x8001, 0x00, 0x00, 0x00, 0xFD, 0x36⟩, []) := by decide  -- TAY

theorem test_txa : after (start ⟨0x8000, 0x00, 0x7F, 0x00, 0xFD, 0xB6⟩ false [] [0x8A])
    [] = some (⟨0x8001, 0x7F, 0x7F, 0x00, 0xFD, 0x34⟩, []) := by decide  -- TXA

theorem test_tya : after (start ⟨0x8000, 0x00, 0x00, 0xFF, 0xFD, 0x34⟩ false [] [0x98])
    [] = some (⟨0x8001, 0xFF, 0x00, 0xFF, 0xFD, 0xB4⟩, []) := by decide  -- TYA

theorem test_tsx : after (start ⟨0x8000, 0x00, 0x55, 0x00, 0x00, 0x34⟩ false [] [0xBA])
    [] = some (⟨0x8001, 0x00, 0x00, 0x00, 0x00, 0x36⟩, []) := by decide  -- TSX

theorem test_txs_writes_no_flag : after (start ⟨0x8000, 0x00, 0x00, 0x00, 0xFD, 0x34⟩ false [] [0x9A])
    [] = some (⟨0x8001, 0x00, 0x00, 0x00, 0x00, 0x34⟩, []) := by decide  -- TXS

theorem test_adc_ignores_decimal : after (start ⟨0x8000, 0x01, 0x00, 0x00, 0xFD, 0x3C⟩ false [] [0x69, 0x99])
    [] = some (⟨0x8002, 0x9A, 0x00, 0x00, 0xFD, 0xBC⟩, []) := by decide  -- ADC #$99

theorem test_adc_zero_page : after (start ⟨0x8000, 0x80, 0x00, 0x00, 0xFD, 0x34⟩ false [(0x0010, 0x80)] [0x65, 0x10])
    [] = some (⟨0x8002, 0x00, 0x00, 0x00, 0xFD, 0x77⟩, []) := by decide  -- ADC $10

theorem test_sbc_borrow_in : after (start ⟨0x8000, 0x00, 0x00, 0x00, 0xFD, 0x34⟩ false [] [0xE9, 0x01])
    [] = some (⟨0x8002, 0xFE, 0x00, 0x00, 0xFD, 0xB4⟩, []) := by decide  -- SBC #$01

theorem test_sbc_signed_overflow : after (start ⟨0x8000, 0x80, 0x00, 0x00, 0xFD, 0x35⟩ false [] [0xE9, 0x01])
    [] = some (⟨0x8002, 0x7F, 0x00, 0x00, 0xFD, 0x75⟩, []) := by decide  -- SBC #$01

theorem test_and_keeps_v_and_c : after (start ⟨0x8000, 0xF0, 0x00, 0x00, 0xFD, 0xB5⟩ false [] [0x29, 0x0F])
    [] = some (⟨0x8002, 0x00, 0x00, 0x00, 0xFD, 0x37⟩, []) := by decide  -- AND #$0F

theorem test_ora_zero : after (start ⟨0x8000, 0x00, 0x00, 0x00, 0xFD, 0xF5⟩ false [] [0x09, 0x00])
    [] = some (⟨0x8002, 0x00, 0x00, 0x00, 0xFD, 0x77⟩, []) := by decide  -- ORA #$00

theorem test_eor : after (start ⟨0x8000, 0xFF, 0x00, 0x00, 0xFD, 0x34⟩ false [] [0x49, 0xFF])
    [] = some (⟨0x8002, 0x00, 0x00, 0x00, 0xFD, 0x36⟩, []) := by decide  -- EOR #$FF

theorem test_cmp_equal_keeps_v : after (start ⟨0x8000, 0x40, 0x00, 0x00, 0xFD, 0xF4⟩ false [] [0xC9, 0x40])
    [] = some (⟨0x8002, 0x40, 0x00, 0x00, 0xFD, 0x77⟩, []) := by decide  -- CMP #$40

theorem test_cmp_below : after (start ⟨0x8000, 0x00, 0x00, 0x00, 0xFD, 0x35⟩ false [] [0xC9, 0xFF])
    [] = some (⟨0x8002, 0x00, 0x00, 0x00, 0xFD, 0x34⟩, []) := by decide  -- CMP #$FF

theorem test_cpx : after (start ⟨0x8000, 0x00, 0x10, 0x00, 0xFD, 0x34⟩ false [(0x0010, 0x10)] [0xE4, 0x10])
    [] = some (⟨0x8002, 0x00, 0x10, 0x00, 0xFD, 0x37⟩, []) := by decide  -- CPX $10

theorem test_cpy : after (start ⟨0x8000, 0x00, 0x00, 0xFF, 0xFD, 0x34⟩ false [(0x0200, 0x01)] [0xCC, 0x00, 0x02])
    [] = some (⟨0x8003, 0x00, 0x00, 0xFF, 0xFD, 0xB5⟩, []) := by decide  -- CPY $0200

theorem test_bit_sets_v_and_s : after (start ⟨0x8000, 0x01, 0x00, 0x00, 0xFD, 0x35⟩ false [(0x0010, 0xC0)] [0x24, 0x10])
    [] = some (⟨0x8002, 0x01, 0x00, 0x00, 0xFD, 0xF7⟩, []) := by decide  -- BIT $10

theorem test_bit_clears_v_and_s : after (start ⟨0x8000, 0xFF, 0x00, 0x00, 0xFD, 0xF7⟩ false [(0x0010, 0x3F)] [0x24, 0x10])
    [] = some (⟨0x8002, 0xFF, 0x00, 0x00, 0xFD, 0x35⟩, []) := by decide  -- BIT $10

theorem test_inc_wraps_keeps_c : after (start ⟨0x8000, 0x00, 0x00, 0x00, 0xFD, 0x35⟩ false [(0x0010, 0xFF)] [0xE6, 0x10])
    [0x0010] = some (⟨0x8002, 0x00, 0x00, 0x00, 0xFD, 0x37⟩, [some 0x00]) := by decide  -- INC $10

theorem test_dec_rom_sets_flags : after (start ⟨0x8000, 0x00, 0x00, 0x00, 0xFD, 0x34⟩ false [] [0xCE, 0x00, 0x80])
    [0x8000] = some (⟨0x8003, 0x00, 0x00, 0x00, 0xFD, 0xB4⟩, [some 0xCE]) := by decide  -- DEC $8000

theorem test_inx_wraps : after (start ⟨0x8000, 0x00, 0xFF, 0x00, 0xFD, 0x35⟩ false [] [0xE8])
    [] = some (⟨0x8001, 0x00, 0x00, 0x00, 0xFD, 0x37⟩, []) := by decide  -- INX

theorem test_iny : after (start ⟨0x8000, 0x00, 0x00, 0x7F, 0xFD, 0x34⟩ false [] [0xC8])
    [] = some (⟨0x8001, 0x00, 0x00, 0x80, 0xFD, 0xB4⟩, []) := by decide  -- INY

theorem test_dex_wraps : after (start ⟨0x8000, 0x00, 0x00, 0x00, 0xFD, 0x34⟩ false [] [0xCA])
    [] = some (⟨0x8001, 0x00, 0xFF, 0x00, 0xFD, 0xB4⟩, []) := by decide  -- DEX

theorem test_dey_zero : after (start ⟨0x8000, 0x00, 0x00, 0x01, 0xFD, 0xB4⟩ false [] [0x88])
    [] = some (⟨0x8001, 0x00, 0x00, 0x00, 0xFD, 0x36⟩, []) := by decide  -- DEY

theorem test_asl_ignores_carry : after (start ⟨0x8000, 0x41, 0x00, 0x00, 0xFD, 0x35⟩ false [] [0x0A])
    [] = some (⟨0x8001, 0x82, 0x00, 0x00, 0xFD, 0xB4⟩, []) := by decide  -- ASL A

theorem test_asl_memory : after (start ⟨0x8000, 0x00, 0x00, 0x00, 0xFD, 0x34⟩ false [(0x0010, 0xC0)] [0x06, 0x10])
    [0x0010] = some (⟨0x8002, 0x00, 0x00, 0x00, 0xFD, 0xB5⟩, [some 0x80]) := by decide  -- ASL $10

theorem test_lsr_ignores_carry : after (start ⟨0x8000, 0xFE, 0x00, 0x00, 0xFD, 0x35⟩ false [] [0x4A])
    [] = some (⟨0x8001, 0x7F, 0x00, 0x00, 0xFD, 0x34⟩, []) := by decide  -- LSR A

theorem test_lsr_memory : after (start ⟨0x8000, 0x00, 0x00, 0x00, 0xFD, 0x34⟩ false [(0x0200, 0x80)] [0x4E, 0x00, 0x02])
    [0x0200] = some (⟨0x8003, 0x00, 0x00, 0x00, 0xFD, 0x34⟩, [some 0x40]) := by decide  -- LSR $0200

theorem test_rol_carry_through : after (start ⟨0x8000, 0x80, 0x00, 0x00, 0xFD, 0x35⟩ false [] [0x2A])
    [] = some (⟨0x8001, 0x01, 0x00, 0x00, 0xFD, 0x35⟩, []) := by decide  -- ROL A

theorem test_rol_memory : after (start ⟨0x8000, 0x00, 0x00, 0x00, 0xFD, 0x35⟩ false [(0x0010, 0x00)] [0x26, 0x10])
    [0x0010] = some (⟨0x8002, 0x00, 0x00, 0x00, 0xFD, 0x34⟩, [some 0x01]) := by decide  -- ROL $10

theorem test_ror_carry_through : after (start ⟨0x8000, 0x01, 0x00, 0x00, 0xFD, 0x35⟩ false [] [0x6A])
    [] = some (⟨0x8001, 0x80, 0x00, 0x00, 0xFD, 0xB5⟩, []) := by decide  -- ROR A

theorem test_ror_memory : after (start ⟨0x8000, 0x00, 0x01, 0x00, 0xFD, 0x35⟩ false [(0x0200, 0xFF)] [0x7E, 0xFF, 0x01])
    [0x0200] = some (⟨0x8003, 0x00, 0x01, 0x00, 0xFD, 0xB5⟩, [some 0xFF]) := by decide  -- ROR $01FF,X

theorem test_bcc_taken : after (start ⟨0x8000, 0x00, 0x00, 0x00, 0xFD, 0x34⟩ false [] [0x90, 0x10])
    [] = some (⟨0x8012, 0x00, 0x00, 0x00, 0xFD, 0x34⟩, []) := by decide  -- BCC $10 (+PC)

theorem test_bcc_not_taken : after (start ⟨0x8000, 0x00, 0x00, 0x00, 0xFD, 0x35⟩ false [] [0x90, 0x10])
    [] = some (⟨0x8002, 0x00, 0x00, 0x00, 0xFD, 0x35⟩, []) := by decide  -- BCC $10 (+PC)

theorem test_bcs_taken : after (start ⟨0x8000, 0x00, 0x00, 0x00, 0xFD, 0x35⟩ false [] [0xB0, 0x10])
    [] = some (⟨0x8012, 0x00, 0x00, 0x00, 0xFD, 0x35⟩, []) := by decide  -- BCS $10 (+PC)

theorem test_beq_backward : after (start ⟨0x8000, 0x00, 0x00, 0x00, 0xFD, 0x36⟩ false [] [0xF0, 0xFE])
    [] = some (⟨0x8000, 0x00, 0x00, 0x00, 0xFD, 0x36⟩, []) := by decide  -- BEQ $FE (+PC)

theorem test_bne_not_taken : after (start ⟨0x8000, 0x00, 0x00, 0x00, 0xFD, 0x36⟩ false [] [0xD0, 0xF9])
    [] = some (⟨0x8002, 0x00, 0x00, 0x00, 0xFD, 0x36⟩, []) := by decide  -- BNE $F9 (+PC)

theorem test_bmi_taken : after (start ⟨0x8000, 0x00, 0x00, 0x00, 0xFD, 0xB4⟩ false [] [0x30, 0x02])
    [] = some (⟨0x8004, 0x00, 0x00, 0x00, 0xFD, 0xB4⟩, []) := by decide  -- BMI $02 (+PC)

theorem test_bpl_not_taken : after (start ⟨0x8000, 0x00, 0x00, 0x00, 0xFD, 0xB4⟩ false [] [0x10, 0x02])
    [] = some (⟨0x8002, 0x00, 0x00, 0x00, 0xFD, 0xB4⟩, []) := by decide  -- BPL $02 (+PC)

theorem test_bvc_backward : after (start ⟨0x8000, 0x00, 0x00, 0x00, 0xFD, 0x34⟩ false [] [0x50, 0xFC])
    [] = some (⟨0x7FFE, 0x00, 0x00, 0x00, 0xFD, 0x34⟩, []) := by decide  -- BVC $FC (+PC)

theorem test_bvs_backward : after (start ⟨0x8000, 0x00, 0x00, 0x00, 0xFD, 0x74⟩ false [] [0x70, 0xFC])
    [] = some (⟨0x7FFE, 0x00, 0x00, 0x00, 0xFD, 0x74⟩, []) := by decide  -- BVS $FC (+PC)

theorem test_jsr_pushes_return_minus_one : after (start ⟨0x8000, 0x00, 0x00, 0x00, 0xFD, 0x34⟩ false [] [0x20, 0x34, 0x92])
    [0x01FD, 0x01FC] = some (⟨0x9234, 0x00, 0x00, 0x00, 0xFB, 0x34⟩, [some 0x80, some 0x02]) := by decide  -- JSR $9234

theorem test_jsr_stack_wraps : after (start ⟨0x8000, 0x00, 0x00, 0x00, 0x00, 0x34⟩ false [] [0x20, 0x00, 0x90])
    [0x0100, 0x01FF] = some (⟨0x9000, 0x00, 0x00, 0x00, 0xFE, 0x34⟩, [some 0x80, some 0x02]) := by decide  -- JSR $9000

theorem test_rts : after (start ⟨0x8000, 0x00, 0x00, 0x00, 0xFB, 0x34⟩ false [(0x01FC, 0x02), (0x01FD, 0x80)] [0x60])
    [] = some (⟨0x8003, 0x00, 0x00, 0x00, 0xFD, 0x34⟩, []) := by decide  -- RTS

theorem test_rts_stack_wraps : after (start ⟨0x8000, 0x00, 0x00, 0x00, 0xFF, 0x34⟩ false [(0x0100, 0x33), (0x0101, 0x12)] [0x60])
    [] = some (⟨0x1234, 0x00, 0x00, 0x00, 0x01, 0x34⟩, []) := by decide  -- RTS

theorem test_brk : after (start ⟨0x8000, 0x00, 0x00, 0x00, 0xFD, 0x24⟩ false [(0xFFFE, 0x00), (0xFFFF, 0x90)] [0x00])
    [0x01FD, 0x01FC, 0x01FB] = some (⟨0x9000, 0x00, 0x00, 0x00, 0xFA, 0x24⟩, [some 0x80, some 0x02, some 0x34]) := by decide  -- BRK

theorem test_brk_stack_wraps : after (start ⟨0x8000, 0x00, 0x00, 0x00, 0x01, 0xE3⟩ false [(0xFFFE, 0x34), (0xFFFF, 0x12)] [0x00])
    [0x0101, 0x0100, 0x01FF] = some (⟨0x1234, 0x00, 0x00, 0x00, 0xFE, 0xE7⟩, [some 0x80, some 0x02, some 0xF3]) := by decide  -- BRK

theorem test_rti : after (start ⟨0x8000, 0x00, 0x00, 0x00, 0xFA, 0x34⟩ false [(0x01FB, 0xFF), (0x01FC, 0x34), (0x01FD, 0x12)] [0x40])
    [] = some (⟨0x1234, 0x00, 0x00, 0x00, 0xFD, 0xEF⟩, []) := by decide  -- RTI

theorem test_rti_reserved : after (start ⟨0x8000, 0x00, 0x00, 0x00, 0xFA, 0xFF⟩ false [(0x01FB, 0x00), (0x01FC, 0x00), (0x01FD, 0x80)] [0x40])
    [] = some (⟨0x8000, 0x00, 0x00, 0x00, 0xFD, 0x20⟩, []) := by decide  -- RTI

theorem test_pha_stack_wraps : after (start ⟨0x8000, 0x42, 0x00, 0x00, 0x00, 0x34⟩ false [] [0x48])
    [0x0100] = some (⟨0x8001, 0x42, 0x00, 0x00, 0xFF, 0x34⟩, [some 0x42]) := by decide  -- PHA

theorem test_pla_stack_wraps : after (start ⟨0x8000, 0x11, 0x00, 0x00, 0xFF, 0x34⟩ false [(0x0100, 0x00)] [0x68])
    [] = some (⟨0x8001, 0x00, 0x00, 0x00, 0x00, 0x36⟩, []) := by decide  -- PLA

theorem test_php_pushes_b_and_r : after (start ⟨0x8000, 0x00, 0x00, 0x00, 0xFD, 0x24⟩ false [] [0x08])
    [0x01FD] = some (⟨0x8001, 0x00, 0x00, 0x00, 0xFC, 0x24⟩, [some 0x34]) := by decide  -- PHP

theorem test_plp_clears_b : after (start ⟨0x8000, 0x00, 0x00, 0x00, 0xFC, 0x24⟩ false [(0x01FD, 0xFF)] [0x28])
    [] = some (⟨0x8001, 0x00, 0x00, 0x00, 0xFD, 0xEF⟩, []) := by decide  -- PLP

theorem test_plp_sets_r : after (start ⟨0x8000, 0x00, 0x00, 0x00, 0xFC, 0x24⟩ false [(0x01FD, 0x10)] [0x28])
    [] = some (⟨0x8001, 0x00, 0x00, 0x00, 0xFD, 0x20⟩, []) := by decide  -- PLP

theorem test_clc : after (start ⟨0x8000, 0x00, 0x00, 0x00, 0xFD, 0xFF⟩ false [] [0x18])
    [] = some (⟨0x8001, 0x00, 0x00, 0x00, 0xFD, 0xFE⟩, []) := by decide  -- CLC

theorem test_sec : after (start ⟨0x8000, 0x00, 0x00, 0x00, 0xFD, 0x24⟩ false [] [0x38])
    [] = some (⟨0x8001, 0x00, 0x00, 0x00, 0xFD, 0x25⟩, []) := by decide  -- SEC

theorem test_cli : after (start ⟨0x8000, 0x00, 0x00, 0x00, 0xFD, 0xFF⟩ false [] [0x58])
    [] = some (⟨0x8001, 0x00, 0x00, 0x00, 0xFD, 0xFB⟩, []) := by decide  -- CLI

theorem test_sei : after (start ⟨0x8000, 0x00, 0x00, 0x00, 0xFD, 0x20⟩ false [] [0x78])
    [] = some (⟨0x8001, 0x00, 0x00, 0x00, 0xFD, 0x24⟩, []) := by decide  -- SEI

theorem test_cld : after (start ⟨0x8000, 0x00, 0x00, 0x00, 0xFD, 0xFF⟩ false [] [0xD8])
    [] = some (⟨0x8001, 0x00, 0x00, 0x00, 0xFD, 0xF7⟩, []) := by decide  -- CLD

theorem test_sed : after (start ⟨0x8000, 0x00, 0x00, 0x00, 0xFD, 0x20⟩ false [] [0xF8])
    [] = some (⟨0x8001, 0x00, 0x00, 0x00, 0xFD, 0x28⟩, []) := by decide  -- SED

theorem test_clv : after (start ⟨0x8000, 0x00, 0x00, 0x00, 0xFD, 0xFF⟩ false [] [0xB8])
    [] = some (⟨0x8001, 0x00, 0x00, 0x00, 0xFD, 0xBF⟩, []) := by decide  -- CLV

theorem test_nop : after (start ⟨0x8000, 0x01, 0x02, 0x03, 0xFD, 0xFF⟩ false [] [0xEA])
    [] = some (⟨0x8001, 0x01, 0x02, 0x03, 0xFD, 0xFF⟩, []) := by decide  -- NOP

theorem test_lax_zero_page_y_wraps : after (start ⟨0x8000, 0x00, 0x00, 0x02, 0xFD, 0x34⟩ false [(0x0001, 0x7F), (0x0101, 0x99)] [0xB7, 0xFF])
    [] = some (⟨0x8002, 0x7F, 0x7F, 0x02, 0xFD, 0x34⟩, []) := by decide  -- LAX $FF,Y

theorem test_sax_zero_page_y_wraps : after (start ⟨0x8000, 0xFF, 0x81, 0x01, 0xFD, 0x34⟩ false [] [0x97, 0xFF])
    [0x0000, 0x0100] = some (⟨0x8002, 0xFF, 0x81, 0x01, 0xFD, 0x34⟩, [some 0x81, some 0x00]) := by decide  -- SAX $FF,Y

theorem test_slo : after (start ⟨0x8000, 0x00, 0x00, 0x01, 0xFD, 0x34⟩ false [(0x0201, 0x80)] [0x1B, 0x00, 0x02])
    [0x0201] = some (⟨0x8003, 0x00, 0x00, 0x01, 0xFD, 0x37⟩, [some 0x00]) := by decide  -- SLO $0200,Y

theorem test_slo_rom_uses_shifted_byte : after (start ⟨0x8000, 0x01, 0x00, 0x00, 0xFD, 0x34⟩ false [] [0x0F, 0x00, 0x80])
    [0x8000] = some (⟨0x8003, 0x1F, 0x00, 0x00, 0xFD, 0x34⟩, [some 0x0F]) := by decide  -- SLO $8000

theorem test_rla : after (start ⟨0x8000, 0xFF, 0x00, 0x00, 0xFD, 0x35⟩ false [(0x0010, 0x81)] [0x27, 0x10])
    [0x0010] = some (⟨0x8002, 0x03, 0x00, 0x00, 0xFD, 0x35⟩, [some 0x03]) := by decide  -- RLA $10

theorem test_sre : after (start ⟨0x8000, 0x40, 0x00, 0x00, 0xFD, 0x34⟩ false [(0x0010, 0x81)] [0x47, 0x10])
    [0x0010] = some (⟨0x8002, 0x00, 0x00, 0x00, 0xFD, 0x37⟩, [some 0x40]) := by decide  -- SRE $10

theorem test_rra_uses_carry_out : after (start ⟨0x8000, 0x10, 0x00, 0x00, 0xFD, 0x35⟩ false [(0x0010, 0x81)] [0x67, 0x10])
    [0x0010] = some (⟨0x8002, 0xD1, 0x00, 0x00, 0xFD, 0xB4⟩, [some 0xC0]) := by decide  -- RRA $10

theorem test_dcp : after (start ⟨0x8000, 0x40, 0x00, 0x00, 0xFD, 0x34⟩ false [(0x0010, 0x41)] [0xC7, 0x10])
    [0x0010] = some (⟨0x8002, 0x40, 0x00, 0x00, 0xFD, 0x37⟩, [some 0x40]) := by decide  -- DCP $10

theorem test_isb : after (start ⟨0x8000, 0x10, 0x00, 0x00, 0xFD, 0x35⟩ false [(0x0010, 0xFF)] [0xE7, 0x10])
    [0x0010] = some (⟨0x8002, 0x10, 0x00, 0x00, 0xFD, 0x35⟩, [some 0x00]) := by decide  -- ISB $10

theorem test_isb_overflow : after (start ⟨0x8000, 0x80, 0x00, 0x00, 0xFD, 0x35⟩ false [(0x0200, 0x00)] [0xFF, 0x00, 0x02])
    [0x0200] = some (⟨0x8003, 0x7F, 0x00, 0x00, 0xFD, 0x75⟩, [some 0x01]) := by decide  -- ISB $0200,X

theorem test_nop_absolute_reads_nothing : after (start ⟨0x8000, 0x00, 0x00, 0x00, 0xFD, 0x34⟩ true [] [0x0C, 0x00, 0x20])
    [] = some (⟨0x8003, 0x00, 0x00, 0x00, 0xFD, 0x34⟩, []) := by decide  -- NOP $2000

/-! ### Faults: vectors of 95_test_vectors.md -/

theorem test_fault_optional_opcode_undefined : faultAfter (start ⟨0x8000, 0x00, 0x00, 0x00, 0xFD, 0x34⟩ false [] [0x1A]) =
    some (.decodeError 0x1A 0x8000, ⟨0x8001, 0x00, 0x00, 0x00, 0xFD, 0x34⟩) := by decide  -- UNK

theorem test_fault_store_opcode_undefined : faultAfter (start ⟨0x8000, 0x00, 0x00, 0x00, 0xFD, 0x34⟩ true [] [0x9C, 0x00, 0x02]) =
    some (.decodeError 0x9C 0x8000, ⟨0x8001, 0x00, 0x00, 0x00, 0xFD, 0x34⟩) := by decide  -- UNK

theorem test_fault_lda_unassigned : faultAfter (start ⟨0x8000, 0x00, 0x00, 0x00, 0xFD, 0x34⟩ false [] [0xAD, 0x00, 0x20]) =
    some (.addressingError 0x2000 .read, ⟨0x8003, 0x00, 0x00, 0x00, 0xFD, 0x34⟩) := by decide  -- LDA $2000

theorem test_fault_sta_unassigned : faultAfter (start ⟨0x8000, 0x01, 0x00, 0x00, 0xFD, 0x34⟩ false [] [0x8D, 0x00, 0x40]) =
    some (.addressingError 0x4000 .write, ⟨0x8003, 0x01, 0x00, 0x00, 0xFD, 0x34⟩) := by decide  -- STA $4000

theorem test_fault_inc_unassigned : faultAfter (start ⟨0x8000, 0x00, 0x00, 0x00, 0xFD, 0x34⟩ false [] [0xEE, 0x00, 0x20]) =
    some (.addressingError 0x2000 .read, ⟨0x8003, 0x00, 0x00, 0x00, 0xFD, 0x34⟩) := by decide  -- INC $2000

theorem test_fault_jmp_pointer_unassigned : faultAfter (start ⟨0x8000, 0x00, 0x00, 0x00, 0xFD, 0x34⟩ false [] [0x6C, 0x00, 0x20]) =
    some (.addressingError 0x2000 .read, ⟨0x8003, 0x00, 0x00, 0x00, 0xFD, 0x34⟩) := by decide  -- JMP ($2000)

/-! ### Witnesses: states and operands that meet the hypotheses of the statements -/

/-- A small legal machine: NROM, one unit; a pointer to 0x0300 at 0x10 and at 0xFF/0x00, a byte at 0x0300. -/
def w : State := { State.reset with
  pc := 0x0200, a := 0x81, x := 0x02, y := 0x03, sp := 0x00, p := 0x25,
  ram := [(0x00, 0x03), (0x10, 0x01), (0x11, 0x03), (0x100, 0x12), (0x101, 0x34), (0x102, 0x56), (0x300, 0x7F)] }

/-- `w` without a selector: banks 4 to 7 unassigned. -/
def wBare : State := { w with bank := bankTable .unassigned .unassigned .unassigned .unassigned }

/-- `w` with bank 7 a writable slice. -/
def wWritable : State := { w with
  bank := bankTable (.prgSlice 0 false) (.prgSlice 1 false) (.prgSlice 0 false) (.prgSlice 1 true) }

theorem w_inv : w.Inv := by decide

/-- The bytes at PC, from a check of each. -/
theorem bytesAtPc_of_all {s : State} {bytes : List Byte}
    (h : (bytes.zipIdx.all fun e => s.read (s.pc + BitVec.ofNat 16 e.2) == some e.1) = true) : BytesAtPc s bytes := by
  intro k b hk
  have hm : (b, k) ∈ bytes.zipIdx := List.mk_mem_zipIdx_iff_getElem?.mpr hk
  simpa using List.all_eq_true.mp h _ hm

theorem noWritableRom_of_banks {s : State} (h : ∀ (n : Nat) (hn : n < 8) (k : Nat), s.bank[n] ≠ .prgSlice k true) :
    noWritableRom s := fun addr k => h _ (bankIndex_lt addr) k

theorem witness_DecodeOfEncode : Instr.wellFormed false (.ldaImm 0xFF) = true ∧
    Instr.wellFormed true (.nopAbx1C 0xFFFF) = true := by decide

theorem witness_DecodedBytes : decode false [0xAD, 0xFF, 0xFF, 0xEA] = .decoded (.ldaAbs 0xFFFF) [0xEA] := by decide

theorem witness_UndefinedOpcodes : (0x02 : Byte) ∈ undefinedOpcodes ∧ (0xF2 : Byte) ∈ undefinedOpcodes ∧
    (0x1A : Byte) ∈ optionalOpcodes ∧ (0xEB : Byte) ∈ optionalOpcodes ∧
    (0x00 : Byte) ∉ undefinedOpcodes ∧ (0x00 : Byte) ∉ optionalOpcodes ∧ (0xFF : Byte) ∉ undefinedOpcodes ∧
    (0xFF : Byte) ∉ optionalOpcodes := by decide

theorem witness_Disassembler : decode false [0xEA, 0x01, 0x02] = .decoded .nop [0x01, 0x02] ∧
    decode false [0xA9, 0x01, 0x02] = .decoded (.ldaImm 0x01) [0x02] ∧
    decode false [0xAD, 0x01, 0x02] = .decoded (.ldaAbs 0x0201) [] ∧
    decode false [0x02, 0x01, 0x02] = .rejected (.undefinedOpcode 0x02) := by decide

/-- The two bytes lie at the top and the bottom of the address space. -/
theorem witness_StepRuns : ∃ s : State, s.fault = none ∧ decode s.extUndoc [0xA9, 0x42] = .decoded (.ldaImm 0x42) [] ∧
    BytesAtPc s [0xA9, 0x42] :=
  ⟨start ⟨0xFFFF, 0, 0, 0, 0xFD, 0x34⟩ false [] [0xA9, 0x42], by decide, by decide, bytesAtPc_of_all (by decide)⟩

theorem witness_FetchFaults :
    (∃ s : State, s.fault = none ∧ s.read s.pc = none) ∧
    (∃ s : State, s.fault = none ∧ s.read s.pc = some 0x02 ∧ (decodeOp s.extUndoc 0x02).2 = .unknown) ∧
    (∃ s : State, s.fault = none ∧ s.read s.pc = some 0xA9 ∧ 1 ≤ (decodeOp s.extUndoc 0xA9).2.operandBytes ∧
      decodeOp s.extUndoc 0xA9 ≠ (.NOP, .immediate) ∧ s.read (s.pc + 1) = none) ∧
    (∃ s : State, s.fault = none ∧ s.read s.pc = some 0xAD ∧ (decodeOp s.extUndoc 0xAD).2.operandBytes = 2 ∧
      (s.read (s.pc + 1)).isSome = true ∧ s.read (s.pc + 2) = none) ∧
    (∃ s : State, s.fault = none ∧ s.read s.pc = some 0x80 ∧ decodeOp s.extUndoc 0x80 = (.NOP, .immediate)) :=
  ⟨⟨start ⟨0x5FFF, 0, 0, 0, 0xFD, 0x34⟩ false [] [], by decide⟩,
   ⟨start ⟨0x1FFF, 0, 0, 0, 0xFD, 0x34⟩ false [] [0x02], by decide⟩,
   ⟨start ⟨0x1FFF, 0, 0, 0, 0xFD, 0x34⟩ false [] [0xA9], by decide⟩,
   ⟨start ⟨0x1FFE, 0, 0, 0, 0xFD, 0x34⟩ false [] [0xAD, 0x00], by decide⟩,
   ⟨start ⟨0x1FFF, 0, 0, 0, 0xFD, 0x34⟩ true [] [0x80], by decide⟩⟩

theorem witness_FaultedMachine : (∃ f, step (w.setPc 0x2000) = .fault f) ∧
    (w.setFault (some (.decodeError 0x02 0x0200))).fault = some (.decodeError 0x02 0x0200) := ⟨⟨_, rfl⟩, rfl⟩

theorem witness_StepEnds : w.fault = none := rfl

theorem witness_OnlyBanks1And2 : ∃ left, w.fault = none ∧ w.legalBanks = true ∧ cartridgeAssigned w ∧
    step (w.setPc 0x2000) = .fault (.addressingError 0x2000 .read left) :=
  ⟨_, by decide, by decide, by unfold cartridgeAssigned; decide, rfl⟩

/-- A selector that meets the contract of R52 and makes the last bank writable. -/
def wSelector : Selector := fun d =>
  if d.prgUnits = 1 then .ok #v[⟨0, false⟩, ⟨1, false⟩, ⟨0, false⟩, ⟨1, true⟩] else .err (.unsupportedPrgUnits d.prgUnits)

/-- A cartridge of `units` units that lists one byte. -/
def wRom (units : Nat) : RomDescriptor := ⟨[(0x3FFC, 0x80)], units, [], 0, 0, false, false, false, false⟩

theorem witness_InitialisedMachine : (wRom 1).wf = true ∧ wSelector.InRange ∧
    (∃ s, init (wRom 1) (some wSelector) [(0x7FF, 0x01)] [(0x1FFF, 0x01)] none false = .machine s) ∧
    (∃ s, init (wRom 1) none [] [] (some 0x0200) false = .machine s) ∧
    Memory.wf [(0x7FF, 0x01)] = true ∧ Memory.within 2048 [(0x7FF, 0x01)] = true ∧
    Memory.wf [(0x1FFF, 0x01)] = true ∧ Memory.within 8192 [(0x1FFF, 0x01)] = true := by
  refine ⟨by decide, ?_, ⟨_, rfl⟩, ⟨_, rfl⟩, by decide, by decide, by decide, by decide⟩
  intro d slots h i
  unfold wSelector at h
  split at h
  · rename_i hu
    cases h
    rw [hu]
    revert i
    decide
  · cases h

theorem witness_EveryStep : ∃ t, w.Inv ∧ step w = .next t := ⟨_, w_inv, rfl⟩

theorem witness_NoStepWritesTheBankTable : ∃ t, step wWritable = .next t := ⟨_, rfl⟩

/-- The step stores to ROM. -/
theorem witness_ProgramRom : ∃ t, noWritableRom w ∧
    step (start ⟨0x0200, 0x77, 0, 0, 0xFD, 0x34⟩ false [] [0x8D, 0x00, 0x80]) = .next t := by
  refine ⟨_, noWritableRom_of_banks ?_, rfl⟩
  intro n hn k
  have hcases : n = 0 ∨ n = 1 ∨ n = 2 ∨ n = 3 ∨ n = 4 ∨ n = 5 ∨ n = 6 ∨ n = 7 := by omega
  rcases hcases with rfl | rfl | rfl | rfl | rfl | rfl | rfl | rfl <;> simp [w, State.reset]

theorem witness_ReservedBit : ∃ t u v, step w = .next t ∧ w.flag .R = true ∧ exec .plp w = .next u ∧
    (∃ x, exec .rti w = .next x) ∧ w.bank[0] = .sysRam ∧ exec .php w = .next v ∧ (∃ x, exec .brk w = .next x) ∧
    (∃ x, init (wRom 1) (some nrom) [] [] none false = .machine x) :=
  ⟨_, _, _, rfl, by decide, rfl, ⟨_, rfl⟩, by decide, rfl, ⟨_, rfl⟩, ⟨_, rfl⟩⟩

theorem witness_BreakBit : ∃ t u v, w.flag .B = false ∧ step w = .next t ∧ exec .plp w = .next u ∧
    exec .rti w = .next v := ⟨_, _, _, by decide, rfl, rfl, rfl⟩

theorem witness_ReadsAreRouted :
    w.bank[(0x0000 : Word).toNat / 8192]? = some .sysRam ∧ w.bank[(0x1FFF : Word).toNat / 8192]? = some .sysRam ∧
    w.bank[(0x6000 : Word).toNat / 8192]? = some .saveRam ∧ w.bank[(0x7FFF : Word).toNat / 8192]? = some .saveRam ∧
    w.bank[(0x8000 : Word).toNat / 8192]? = some (.prgSlice 0 false) ∧
    w.bank[(0xFFFF : Word).toNat / 8192]? = some (.prgSlice 1 false) ∧
    w.bank[(0x2000 : Word).toNat / 8192]? = some .unassigned ∧
    w.bank[(0x5FFF : Word).toNat / 8192]? = some .unassigned := by decide

theorem witness_WritesAreRouted : wWritable.bank[(0xE000 : Word).toNat / 8192]? = some (.prgSlice 1 true) ∧
    wWritable.bank[(0xDFFF : Word).toNat / 8192]? = some (.prgSlice 0 false) ∧
    wWritable.bank[(0x1FFF : Word).toNat / 8192]? = some .sysRam ∧
    wWritable.bank[(0x7FFF : Word).toNat / 8192]? = some .saveRam ∧
    wWritable.bank[(0x2000 : Word).toNat / 8192]? = some .unassigned := by decide

theorem witness_RamIsMirrored : w.bank[0] = .sysRam ∧ (3 : Nat) < 4 ∧ (0x07FF : Nat) < 0x0800 ∧
    (0x0000 : Nat) ≠ 0x07FF := by decide

theorem witness_Banks1And2 : (∃ s, init (wRom 1) (some nrom) [] [] none false = .machine s) ∧
    (∃ t, step w = .next t) ∧ w.bank[1] = .unassigned ∧ w.bank[2] = .unassigned ∧
    0x2000 ≤ (0x2000 : Word).toNat ∧ (0x2000 : Word).toNat < 0x6000 ∧
    0x2000 ≤ (0x5FFF : Word).toNat ∧ (0x5FFF : Word).toNat < 0x6000 ∧
    (w.setPc 0x5FFF).fault = none ∧ (w.setPc 0x5FFF).pc = 0x5FFF := ⟨⟨_, rfl⟩, ⟨_, rfl⟩, by decide⟩

theorem witness_NromFills : (∃ s, init (wRom 1) (some nrom) [] [] none false = .machine s) ∧ (wRom 1).prgUnits = 1 ∧
    (∃ s, init (wRom 2) (some nrom) [] [] none false = .machine s) ∧ (wRom 2).prgUnits = 2 ∧
    0x8000 ≤ (0x8000 : Word).toNat ∧ 0x8000 ≤ (0xFFFF : Word).toNat := ⟨⟨_, rfl⟩, rfl, ⟨_, rfl⟩, rfl, by decide⟩

theorem witness_InitialisationSets : (∃ s, init (wRom 1) (some nrom) [] [] none true = .machine s) ∧
    (∃ s, init (wRom 1) none [] [] (some 0x0200) false = .machine s) := ⟨⟨_, rfl⟩, ⟨_, rfl⟩⟩

theorem witness_InitialisationFails : (wRom 0).prgUnits ≠ 1 ∧ (wRom 0).prgUnits ≠ 2 ∧ (wRom 3).prgUnits ≠ 2 ∧
    (({ wRom 1 with mapperNumber := 1 } : RomDescriptor).mapperNumber ≠ 0) ∧ (wRom 1).mapperNumber = 0 ∧
    ((wRom 1).prgUnits = 1 ∨ (wRom 1).prgUnits = 2) ∧ ((wRom 2).prgUnits = 1 ∨ (wRom 2).prgUnits = 2) := by decide

/-- The indirect JMP's pointer at the end of a page, the pre-indexed pointer at 0xFF. -/
theorem witness_IndirectModes :
    (w.read 0x01FF = some 0x00 ∧ w.read (if (0x01FF : Word).toNat % 256 = 255 then 0x01FF - 255 else 0x01FF + 1) =
      some 0x12) ∧
    (w.read (BitVec.ofNat 16 (((0xFD : Byte).toNat + w.x.toNat) % 256)) = some 0x00 ∧
      w.read (BitVec.ofNat 16 (((0xFD : Byte).toNat + w.x.toNat + 1) % 256)) = some 0x03) := by decide

/-- The pointer's second byte comes from 0x0000. -/
theorem witness_PostIndexed : w.read (BitVec.ofNat 16 (0xFF : Byte).toNat) = some 0x00 ∧
    w.read (BitVec.ofNat 16 (((0xFF : Byte).toNat + 1) % 256)) = some 0x03 := by decide

theorem witness_OperandsRead : (Operand.izx 0x0E).mode ≠ .immediate ∧ resolve (.izx 0x0E) w = .ok (some 0x0301) w ∧
    w.read 0x0301 = some 0x00 := ⟨by decide, rfl, by decide⟩

theorem witness_UnassignedOperands :
    (resolve (Instr.jmpInd 0x2000).operand w = .error (.addressingError 0x2000 .read) w) ∧
    (resolve (Instr.ldaAbs 0x5FFF).operand w = .ok (some 0x5FFF) w ∧ w.read 0x5FFF = none ∧
      (Instr.ldaAbs 0x5FFF).mnemonic ∈ readers ∧ (Instr.ldaAbs 0x5FFF).operand.mode ≠ .immediate) ∧
    ((Instr.incAbs 0x5FFF).mnemonic ∈ modifiers ∧ (Instr.aslAbs 0x5FFF).mnemonic ∈ shifts ∧
      (Instr.staAbs 0x5FFF).mnemonic ∈ stores) := ⟨rfl, ⟨rfl, by decide⟩, by decide⟩

theorem witness_Loads : loadOperand (Instr.ldaZp 0x10).operand w = .ok 0x01 w ∧ (Instr.ldaZp 0x10).mnemonic = .LDA ∧
    loadOperand (Instr.ldxImm 0x80).operand w = .ok 0x80 w ∧ (Instr.ldxImm 0x80).mnemonic = .LDX ∧
    (Instr.ldyImm 0x00).mnemonic = .LDY ∧ loadOperand (Instr.laxIzy 0xFF).operand w = .ok 0x00 w ∧
    (Instr.laxIzy 0xFF).mnemonic = .LAX := ⟨rfl, rfl, rfl, rfl, rfl, rfl, rfl⟩

theorem witness_Stores : ∃ t u, storedByte w (Instr.staAbs 0xFFFF).mnemonic = some 0x81 ∧
    resolve (Instr.staAbs 0xFFFF).operand w = .ok (some 0xFFFF) w ∧ w.write 0xFFFF 0x81 = some t ∧
    storedByte w (Instr.saxZpy 0xFF).mnemonic = some 0x00 ∧
    resolve (Instr.saxZpy 0xFF).operand w = .ok (some 0x0002) w ∧ w.write 0x0002 0x00 = some u :=
  ⟨_, _, by decide, rfl, rfl, by decide, rfl, rfl⟩

theorem witness_RegisterOperations : (∃ v t, registerResult w Instr.tsx.mnemonic = some (v, t)) ∧
    (∃ v t, registerResult w Instr.dey.mnemonic = some (v, t)) ∧ Instr.txs.mnemonic = .TXS :=
  ⟨⟨_, _, rfl⟩, ⟨_, _, rfl⟩, rfl⟩

theorem witness_AddAndSubtract : loadOperand (Instr.adcImm 0x7F).operand w = .ok 0x7F w ∧
    (Instr.adcImm 0x7F).mnemonic = .ADC ∧ loadOperand (Instr.sbcImmEB 0xFF).operand w = .ok 0xFF w ∧
    (Instr.sbcImmEB 0xFF).mnemonic = .SBC := ⟨rfl, rfl, rfl, rfl⟩

theorem witness_Logic : logicByte w.a 0x01 (Instr.andZp 0x10).mnemonic = some 0x01 ∧
    loadOperand (Instr.andZp 0x10).operand w = .ok 0x01 w := ⟨by decide, rfl⟩

theorem witness_Compares : comparedRegister w (Instr.cpyImm 0x03).mnemonic = some 0x03 ∧
    loadOperand (Instr.cpyImm 0x03).operand w = .ok 0x03 w := ⟨by decide, rfl⟩

theorem witness_BitTest : (Instr.bitAbs 0x0300).mnemonic = .BIT ∧
    loadOperand (Instr.bitAbs 0x0300).operand w = .ok 0x7F w := ⟨rfl, rfl⟩

theorem witness_IncrementAndDecrement :
    ((Instr.incAbs 0x0300).mnemonic = .INC ∧ (0x80 : Byte) = BitVec.ofNat 8 ((0x7F : Byte).toNat + 1)) ∧
    resolve (Instr.incAbs 0x0300).operand w = .ok (some 0x0300) w ∧ w.read 0x0300 = some 0x7F ∧
    ((Instr.decZp 0x01).mnemonic = .DEC ∧ (0xFF : Byte) = BitVec.ofNat 8 ((0x00 : Byte).toNat + 255)) ∧
    resolve (Instr.decZp 0x01).operand w = .ok (some 0x0001) w ∧ w.read 0x0001 = some 0x00 :=
  ⟨⟨rfl, by decide⟩, rfl, by decide, ⟨rfl, by decide⟩, rfl, by decide⟩

theorem witness_Shifts : shifted 0x81 (w.flag .C) Instr.rolAcc.mnemonic = some (0x03, true) ∧
    Instr.rolAcc.operand = .acc ∧ w.a = 0x81 ∧ shifted 0x7F (w.flag .C) (Instr.rorAbs 0x0300).mnemonic = some (0xBF, true) ∧
    resolve (Instr.rorAbs 0x0300).operand w = .ok (some 0x0300) w ∧ w.read 0x0300 = some 0x7F :=
  ⟨by decide, rfl, rfl, by decide, rfl, by decide⟩

theorem witness_Branches : branchTest (Instr.bne 0x80).mnemonic = some (.Z, false) ∧ w.flag .Z = false ∧
    branchTest (Instr.bcc 0x7F).mnemonic = some (.C, false) ∧ w.flag .C = true := by decide

theorem witness_Jumps : w.read 0x01FF = some 0x00 ∧
    w.read (if (0x01FF : Word).toNat % 256 = 255 then 0x01FF - 255 else 0x01FF + 1) = some 0x12 ∧
    w.read 0x0010 = some 0x01 ∧
    w.read (if (0x0010 : Word).toNat % 256 = 255 then 0x0010 - 255 else 0x0010 + 1) = some 0x03 ∧
    w.read 0x5FFF = none := by decide

theorem witness_PushAndPop : w.bank[0] = .sysRam ∧ w.sp = 0x00 ∧ (w.setSp 0xFF).bank[0] = .sysRam ∧
    (∃ t, exec .nop w = .next t) ∧ (∃ x, init (wRom 1) (some nrom) [] [] none false = .machine x) ∧
    Instr.nop.mnemonic ∉ ([.JSR, .RTS, .BRK, .RTI, .PHA, .PLA, .PHP, .PLP, .TXS] : List Mnemonic) :=
  ⟨by decide, by decide, by decide, ⟨_, rfl⟩, ⟨_, rfl⟩, by decide⟩

/-- For JSR, RTS, RTI and the pushes and pulls; SP is 0x00, so a push wraps. -/
theorem witness_Stack : w.bank[0] = .sysRam ∧ w.sp = 0x00 ∧ w.ram.read (256 + (w.sp + 1).toNat) = 0x34 := by decide

theorem witness_Break : w.legalBanks = true ∧ w.read 0xFFFE = some 0x00 ∧ w.read 0xFFFF = some 0x00 ∧
    wBare.legalBanks = true ∧ wBare.bank[7] = .unassigned := by decide

theorem witness_FlagInstructions : flagWrite Instr.sed.mnemonic = some (.D, true) ∧
    flagWrite Instr.clv.mnemonic = some (.V, false) := by decide

theorem witness_Nop : Instr.nop.mnemonic = .NOP ∧ (Instr.nopAbs0C 0x2000).mnemonic = .NOP := by decide

theorem witness_ReadModifyWrite : resolve (Instr.sloAbs 0x0300).operand w = .ok (some 0x0300) w ∧
    w.read 0x0300 = some 0x7F ∧ (Instr.sloAbs 0x0300).mnemonic = .SLO ∧
    shifted 0x7F (w.flag .C) .ASL = some (0xFE, false) ∧ logicByte w.a 0xFE .ORA = some 0xFF ∧
    shifted 0x7F (w.flag .C) .ROL = some (0xFF, false) ∧ logicByte w.a 0xFF .AND = some 0x81 ∧
    shifted 0x7F (w.flag .C) .LSR = some (0x3F, true) ∧ logicByte w.a 0x3F .EOR = some 0xBE ∧
    (Instr.rlaAbs 0x0300).mnemonic = .RLA ∧ (Instr.sreAbs 0x0300).mnemonic = .SRE ∧
    (Instr.rraAbs 0x0300).mnemonic = .RRA ∧ shifted 0x7F (w.flag .C) .ROR = some (0xBF, true) ∧
    (Instr.dcpAbs 0x0300).mnemonic = .DCP ∧ (Instr.isbAbs 0x0300).mnemonic = .ISB :=
  ⟨rfl, by decide, rfl, by decide, by decide, by decide, by decide, by decide, by decide, rfl, rfl, rfl, by decide, rfl, rfl⟩

/-- NOP is in no register's list and no flag's, the accumulator shift is in A's only through its operand. -/
theorem witness_RegistersKept : ∃ t u, exec .nop w = .next t ∧ exec (.aslAbs 0x0300) w = .next u ∧
    (Instr.aslAbs 0x0300).mnemonic ∈ shifts ∧ (Instr.aslAbs 0x0300).operand ≠ .acc :=
  ⟨_, _, rfl, rfl, by decide, by decide⟩

theorem witness_FlagsKept : ∃ t, exec (.adcImm 0x7F) w = .next t ∧ (Instr.adcImm 0x7F).mnemonic ∉ flagWriters .D :=
  ⟨_, rfl, by decide⟩

theorem witness_MemoryOutsideTheStore : (∃ t, exec .aslAcc w = .next t) ∧ ¬ storesAtEa .aslAcc ∧
    Instr.aslAcc.mnemonic ∉ pushers ∧ (∃ t, exec (.aslAbs 0x0300) w = .next t) ∧ storesAtEa (.aslAbs 0x0300) ∧
    w.locate 0x0301 ≠ w.locate 0x0300 := by
  refine ⟨⟨_, rfl⟩, ?_, by decide, ⟨_, rfl⟩, ?_, by decide⟩ <;> unfold storesAtEa <;> decide

theorem witness_MemoryOutsideThePush : (∃ t, exec .brk w = .next t) ∧ Instr.brk.mnemonic ∈ pushers ∧
    w.locate 0x0101 ≠ w.locate (0x0100 + (w.sp.setWidth 16)) ∧
    w.locate 0x0101 ≠ w.locate (0x0100 + ((w.sp - 1).setWidth 16)) ∧
    w.locate 0x0101 ≠ w.locate (0x0100 + ((w.sp - 2).setWidth 16)) := ⟨⟨_, rfl⟩, by decide⟩

theorem witness_PcAdvances : ∃ (s t : State), (∃ u, fetchInstr s = .ok (.ldaAbs 0x0300) u) ∧ s.fault = none ∧
    decode s.extUndoc [0xAD, 0x00, 0x03] = .decoded (.ldaAbs 0x0300) [] ∧ BytesAtPc s [0xAD, 0x00, 0x03] ∧
    (Instr.ldaAbs 0x0300).mnemonic ∉ pcWriters ∧ step s = .next t :=
  ⟨start ⟨0xFFFE, 0, 0, 0, 0xFD, 0x34⟩ false [] [0xAD, 0x00, 0x03], _, ⟨_, rfl⟩, by decide, by decide,
    bytesAtPc_of_all (by decide), by decide, rfl⟩

theorem witness_StorageOnly : ∃ t u, exec (.adcImm 0x7F) w = .next t ∧ (Instr.adcImm 0x7F).mnemonic ≠ .PHP ∧
    (Instr.adcImm 0x7F).mnemonic ≠ .BRK ∧ exec .rti w = .next u := ⟨_, _, rfl, by decide, by decide, rfl⟩

theorem witness_StackRoundTrips : w.legalBanks = true ∧ cartridgeAssigned w := by
  unfold cartridgeAssigned
  decide

end Sys2Proof.Tests
end

namespace Sys2Proof.Machine

open Sys2Proof.Claims

/-! SUPPORT. The state's frames, by mnemonic: what an instruction that is no writer of SP or of a flag leaves, from one
walk through the operations; the stack in system RAM; the machine an initialisation builds. Then the two statements
about the Reserved bit (R20) and the stack (R17). -/

/-! ### Which flags a write of the status byte leaves -/

theorem keepsFlags_refl (p : Byte) : KeepsFlags p p [] := fun _ _ => rfl

/-- One more flag written is one more flag not kept; the packed writes of the status byte are chains of these. -/
theorem keepsFlags_putFlag {p q : Byte} {written : List Flag} (h : KeepsFlags p q written) (f : Flag) (v : Bool) :
    KeepsFlags p (putFlag q f v) (written ++ [f]) := fun g hg => by
  obtain ⟨hw, hne⟩ : g ∉ written ∧ g ≠ f := by simpa using hg
  rw [getFlag_putFlag_other q v hne, h g hw]

theorem keepsFlags_putZS (p r : Byte) : KeepsFlags p (putZS p r) [.Z, .S] :=
  keepsFlags_putFlag (keepsFlags_putFlag (keepsFlags_refl p) _ _) _ _

theorem keepsFlags_putLogic (p : Byte) (o : LogicOut) : KeepsFlags p (putLogic p o) [.Z, .S] :=
  keepsFlags_putFlag (keepsFlags_putFlag (keepsFlags_refl p) _ _) _ _

theorem keepsFlags_putShift (p : Byte) (o : ShiftOut) : KeepsFlags p (putShift p o) [.C, .Z, .S] :=
  keepsFlags_putFlag (keepsFlags_putFlag (keepsFlags_putFlag (keepsFlags_refl p) _ _) _ _) _ _

theorem keepsFlags_putCompare (p : Byte) (o : CompareOut) : KeepsFlags p (putCompare p o) [.C, .Z, .S] :=
  keepsFlags_putFlag (keepsFlags_putFlag (keepsFlags_putFlag (keepsFlags_refl p) _ _) _ _) _ _

theorem keepsFlags_putBit (p : Byte) (o : BitOut) : KeepsFlags p (putBit p o) [.Z, .V, .S] :=
  keepsFlags_putFlag (keepsFlags_putFlag (keepsFlags_putFlag (keepsFlags_refl p) _ _) _ _) _ _

theorem keepsFlags_putArith (p : Byte) (o : ArithOut) : KeepsFlags p (putArith p o) [.C, .V, .Z, .S] :=
  keepsFlags_putFlag
    (keepsFlags_putFlag (keepsFlags_putFlag (keepsFlags_putFlag (keepsFlags_refl p) _ _) _ _) _ _) _ _

/-- Any write of the status byte keeps the flags outside the list of all eight: there are none. -/
theorem keepsFlags_all (p q : Byte) : KeepsFlags p q [.C, .Z, .I, .D, .B, .R, .V, .S] := fun f hf =>
  absurd (by cases f <;> decide) hf

/-! ### What an instruction may write, by its mnemonic -/

/-- The instructions that write X (R15). -/
def xWriters : List Mnemonic := [.LDX, .TAX, .TSX, .LAX, .INX, .DEX]

/-- The instructions that write Y (R16). -/
def yWriters : List Mnemonic := [.LDY, .TAY, .INY, .DEY]

/-- The instructions that write SP: the stack instructions and TXS (R17). -/
def spWriters : List Mnemonic := [.JSR, .RTS, .BRK, .RTI, .PHA, .PLA, .PHP, .PLP, .TXS]

/-- `R` relates every state to what a write that the mnemonic `m` may make leaves of it: a store, an update of A, and an
update of X, Y, SP, PC or a flag where `m` is one of its writers. -/
structure CoversWrites (R : State → State → Prop) (m : Mnemonic) : Prop extends StatePreorder R where
  write : ∀ s a v t, State.write s a v = some t → R s t
  setA : ∀ s v, R s (State.setA s v)
  setX : m ∈ xWriters → ∀ s v, R s (State.setX s v)
  setY : m ∈ yWriters → ∀ s v, R s (State.setY s v)
  setSp : m ∈ spWriters → ∀ s v, R s (State.setSp s v)
  setPc : m ∈ pcWriters → ∀ s v, R s (State.setPc s v)
  setP : ∀ s v written, KeepsFlags (State.p s) v written → (∀ f ∈ written, m ∈ flagWriters f) → R s (State.setP s v)

namespace CoversWrites

variable {R : State → State → Prop} {m : Mnemonic} (c : CoversWrites R m)
include c

/-! The sequences the operations share, each under the condition that `m` is a writer of what the sequence writes. The
conditions are closed facts once `m` is known, so `decide` supplies them. -/

theorem andThen {α β : Type} {m₁ : M α} {m₂ : α → M β} (h1 : Respects R m₁) (h2 : ∀ a, Respects R (m₂ a)) :
    Respects R (m₁ >>= m₂) := .bind c.toStatePreorder h1 h2

theorem loadBind (o : Operand) {k : Byte → M Unit} (hk : ∀ v, Respects R (k v)) : Respects R (loadOperand o >>= k) :=
  c.andThen (.loadOperand c.toStatePreorder o) hk

theorem resolveBind (o : Operand) {k : Option Word → M Unit} (hk : ∀ ea, Respects R (k ea)) :
    Respects R (resolve o >>= k) :=
  c.andThen (.resolve c.toStatePreorder o) hk

theorem readBind (ea : Option Word) {k : Byte → M Unit} (hk : ∀ v, Respects R (k v)) : Respects R (readEa ea >>= k) :=
  c.andThen (.readEa c.toStatePreorder ea) hk

theorem lookBind {α : Type} (g : State → α) {k : α → M Unit} (hk : ∀ a, Respects R (k a)) :
    Respects R (look g >>= k) :=
  c.andThen (.look c.toStatePreorder g) hk

theorem updateFlags {q : State → Byte} {written : List Flag} (hq : ∀ s, KeepsFlags (State.p s) (q s) written)
    (hw : ∀ f ∈ written, m ∈ flagWriters f := by decide) : Respects R (update fun s => s.setP (q s)) :=
  .update fun s => c.setP s _ written (hq s) hw

theorem updateAAndFlags {r q : State → Byte} {written : List Flag}
    (hq : ∀ s, KeepsFlags (State.p s) (q s) written) (hw : ∀ f ∈ written, m ∈ flagWriters f := by decide) :
    Respects R (update fun s => (s.setA (r s)).setP (q s)) :=
  .update fun s => c.trans (c.setA s _) (c.setP _ _ written (hq s) hw)

theorem setZS (r : Byte) (hw : ∀ f ∈ [Flag.Z, .S], m ∈ flagWriters f := by decide) : Respects R (Machine.setZS r) :=
  c.updateFlags (fun s => keepsFlags_putZS s.p r) hw

theorem setFlag (f : Flag) (v : Bool) (hw : ∀ g ∈ [f], m ∈ flagWriters g := by decide) :
    Respects R (Machine.setFlag f v) :=
  c.updateFlags (fun s => keepsFlags_putFlag (keepsFlags_refl s.p) f v) hw

theorem addToA (b : Byte) (k : Bool) (hw : ∀ f ∈ [Flag.C, .V, .Z, .S], m ∈ flagWriters f := by decide) :
    Respects R (Machine.addToA b k) :=
  c.updateAAndFlags (fun s => keepsFlags_putArith s.p (addF s.a b k)) hw

theorem subFromA (b : Byte) (k : Bool) (hw : ∀ f ∈ [Flag.C, .V, .Z, .S], m ∈ flagWriters f := by decide) :
    Respects R (Machine.subFromA b k) :=
  c.updateAAndFlags (fun s => keepsFlags_putArith s.p (subF s.a b k)) hw

theorem logicA (f : Byte → Byte → LogicOut) (b : Byte) (hw : ∀ f ∈ [Flag.Z, .S], m ∈ flagWriters f := by decide) :
    Respects R (Machine.logicA f b) :=
  c.updateAAndFlags (fun s => keepsFlags_putLogic s.p (f s.a b)) hw

theorem compareWith (r b : Byte) (hw : ∀ f ∈ [Flag.C, .Z, .S], m ∈ flagWriters f := by decide) :
    Respects R (Machine.compareWith r b) :=
  c.updateFlags (fun s => keepsFlags_putCompare s.p (compareF r b)) hw

theorem writeEa (ea : Option Word) (v : Byte) : Respects R (Machine.writeEa ea v) := .writeEa c.write c.setA ea v

theorem stepMemory (f : Byte → LogicOut) (o : Operand) (hw : ∀ f ∈ [Flag.Z, .S], m ∈ flagWriters f := by decide) :
    Respects R (Machine.stepMemory f o) :=
  c.resolveBind o fun ea => c.readBind ea fun b =>
    c.andThen (c.updateFlags (fun s => keepsFlags_putLogic s.p (f b)) hw) fun _ => c.writeEa ea _

theorem shiftOperand (f : Byte → Bool → ShiftOut) (o : Operand)
    (hw : ∀ f ∈ [Flag.C, .Z, .S], m ∈ flagWriters f := by decide) : Respects R (Machine.shiftOperand f o) :=
  c.resolveBind o fun ea => c.readBind ea fun b => c.lookBind _ fun k =>
    c.andThen (c.updateFlags (fun s => keepsFlags_putShift s.p (f b k)) hw) fun _ => c.writeEa ea _

theorem jumpTo (ea : Option Word) (hp : m ∈ pcWriters := by decide) : Respects R (Machine.jumpTo ea) :=
  .jumpTo c.toStatePreorder (c.setPc hp) ea

theorem branchIf (f : Flag) (v : Bool) (o : Operand) (hp : m ∈ pcWriters := by decide) :
    Respects R (Machine.branchIf f v o) :=
  c.resolveBind o fun ea => c.lookBind _ fun k => by
    split
    · exact c.jumpTo ea hp
    · exact .pure c.toStatePreorder ()

theorem push (v : Byte) (hs : m ∈ spWriters := by decide) : Respects R (Machine.push v) :=
  .push c.toStatePreorder c.write (c.setSp hs) v

theorem pushWord (w : Word) (hs : m ∈ spWriters := by decide) : Respects R (Machine.pushWord w) :=
  .pushWord c.toStatePreorder c.write (c.setSp hs) w

theorem pop (hs : m ∈ spWriters := by decide) : Respects R Machine.pop := .pop c.toStatePreorder (c.setSp hs)

theorem popWord (hs : m ∈ spWriters := by decide) : Respects R Machine.popWord :=
  .popWord c.toStatePreorder (c.setSp hs)

theorem setPC (w : Word) (hp : m ∈ pcWriters := by decide) : Respects R (Machine.setPC w) :=
  .update fun s => c.setPc hp s w

end CoversWrites

/-- The operation of a mnemonic respects every relation that covers the writes the mnemonic may make. -/
theorem handler_respects_of_covers {R : State → State → Prop} {m : Mnemonic} (c : CoversWrites R m) (o : Operand) :
    Respects R (handler m o) := by
  have hR := c.toStatePreorder
  cases m with
  | LDA => exact c.loadBind o fun v => c.andThen (.update fun s => c.setA s v) fun _ => c.setZS v
  | LDX => exact c.loadBind o fun v => c.andThen (.update fun s => c.setX (by decide) s v) fun _ => c.setZS v
  | LDY => exact c.loadBind o fun v => c.andThen (.update fun s => c.setY (by decide) s v) fun _ => c.setZS v
  | LAX =>
    exact c.loadBind o fun v => c.andThen (.update fun s => c.setA s v) fun _ =>
      c.andThen (.update fun s => c.setX (by decide) s v) fun _ => c.setZS v
  | STA | STX | STY | SAX => exact c.resolveBind o fun ea => c.lookBind _ fun v => c.writeEa ea v
  | TAX | TSX =>
    exact c.lookBind _ fun v => c.andThen (.update fun s => c.setX (by decide) s v) fun _ => c.setZS v
  | TAY => exact c.lookBind _ fun v => c.andThen (.update fun s => c.setY (by decide) s v) fun _ => c.setZS v
  | TXA | TYA => exact c.lookBind _ fun v => c.andThen (.update fun s => c.setA s v) fun _ => c.setZS v
  | TXS => exact c.lookBind _ fun v => .update fun s => c.setSp (by decide) s v
  | ADC => exact c.loadBind o fun b => c.lookBind _ fun k => c.addToA b k
  | SBC => exact c.loadBind o fun b => c.lookBind _ fun k => c.subFromA b k
  | AND | ORA | EOR => exact c.loadBind o fun b => c.logicA _ b
  | CMP | CPX | CPY => exact c.loadBind o fun b => c.lookBind _ fun r => c.compareWith r b
  | BIT => exact c.loadBind o fun b => c.updateFlags fun s => keepsFlags_putBit s.p (bitF s.a b)
  | INC | DEC => exact c.stepMemory _ o
  | INX | DEX =>
    exact .update fun s => c.trans (c.setX (by decide) s _) (c.setP _ _ _ (keepsFlags_putLogic s.p _) (by decide))
  | INY | DEY =>
    exact .update fun s => c.trans (c.setY (by decide) s _) (c.setP _ _ _ (keepsFlags_putLogic s.p _) (by decide))
  | ASL | LSR | ROL | ROR => exact c.shiftOperand _ o
  | BCC | BCS | BEQ | BNE | BMI | BPL | BVC | BVS => exact c.branchIf _ _ o
  | JMP => exact c.resolveBind o fun ea => c.jumpTo ea
  | JSR =>
    exact c.resolveBind o fun ea => c.lookBind _ fun pc => c.andThen (c.pushWord _) fun _ => c.jumpTo ea
  | RTS => exact c.andThen c.popWord fun w => c.setPC _
  | BRK =>
    exact c.lookBind _ fun pc => c.andThen (c.pushWord _) fun _ => c.lookBind _ fun p => c.andThen (c.push _) fun _ =>
      c.andThen (c.setFlag .I true) fun _ => c.andThen (.memRead16 hR _ _) fun w => c.setPC w
  | RTI =>
    exact c.andThen c.pop fun v => c.andThen (c.updateFlags fun s => keepsFlags_all s.p _) fun _ =>
      c.andThen c.popWord fun w => c.setPC w
  | PHA | PHP => exact c.lookBind _ fun v => c.push _
  | PLA => exact c.andThen c.pop fun v => c.andThen (.update fun s => c.setA s v) fun _ => c.setZS v
  | PLP => exact c.andThen c.pop fun v => c.updateFlags fun s => keepsFlags_all s.p _
  | CLC | SEC | CLI | SEI | CLD | SED | CLV => exact c.setFlag _ _
  | NOP => exact c.resolveBind o fun _ => .pure hR ()
  | SLO | SRE =>
    exact c.resolveBind o fun ea => c.readBind ea fun b => c.andThen (c.setFlag .C _) fun _ =>
      c.andThen (c.writeEa ea _) fun _ => c.logicA _ _
  | RLA =>
    exact c.resolveBind o fun ea => c.readBind ea fun b => c.lookBind _ fun k => c.andThen (c.setFlag .C _) fun _ =>
      c.andThen (c.writeEa ea _) fun _ => c.logicA _ _
  | RRA =>
    exact c.resolveBind o fun ea => c.readBind ea fun b => c.lookBind _ fun k =>
      c.andThen (c.writeEa ea _) fun _ => c.addToA _ _
  | DCP =>
    exact c.resolveBind o fun ea => c.readBind ea fun b => c.andThen (c.writeEa ea _) fun _ =>
      c.lookBind _ fun a => c.compareWith a _
  | ISB =>
    exact c.resolveBind o fun ea => c.readBind ea fun b => c.andThen (c.writeEa ea _) fun _ =>
      c.lookBind _ fun k => c.subFromA _ k
  | UNK => exact .pure hR ()

/-! ### The frames of SP and of a flag -/

/-- An instruction that is no writer of SP leaves it (R17). -/
theorem exec_keeps_sp {i : Instr} {s t : State} (h : exec i s = .next t) (hm : i.mnemonic ∉ spWriters) :
    t.sp = s.sp := by
  have c : CoversWrites (fun s t => t.sp = s.sp) i.mnemonic :=
    { StatePreorder.keeps State.sp with
      write := fun _ _ _ _ hw => by
        obtain ⟨-, -, -, -, hsp, -⟩ := State.write_fields hw
        exact hsp
      setA := fun _ _ => rfl
      setX := fun _ _ _ => rfl
      setY := fun _ _ _ => rfl
      setSp := fun hs => absurd hs hm
      setPc := fun _ _ _ => rfl
      setP := fun _ _ _ _ _ => rfl }
  exact exec_respects h (handler_respects_of_covers c _)

/-- An instruction that is no writer of a flag leaves it (R19, R23, R27). -/
theorem exec_keeps_flag {i : Instr} {s t : State} {f : Flag} (h : exec i s = .next t)
    (hm : i.mnemonic ∉ flagWriters f) : t.flag f = s.flag f := by
  have c : CoversWrites (fun s t => t.flag f = s.flag f) i.mnemonic :=
    { StatePreorder.keeps fun s => s.flag f with
      write := fun s _ _ t hw => by
        obtain ⟨-, -, -, -, -, hp, -⟩ := State.write_fields hw
        rw [State.flag_eq, State.flag_eq, hp]
      setA := fun _ _ => rfl
      setX := fun _ _ _ => rfl
      setY := fun _ _ _ => rfl
      setSp := fun _ _ _ => rfl
      setPc := fun _ _ _ => rfl
      setP := fun _ _ _ hk hw => hk f fun hf => hm (hw f hf) }
  exact exec_respects h (handler_respects_of_covers c _)

/-! ### The stack in system RAM -/

theorem State.read_stackAddr {s : State} (h : s.bank[0] = .sysRam) (sp : Byte) :
    s.read (stackAddr sp) = some (s.ram.read (256 + sp.toNat)) := by
  rw [State.read, State.locate_stackAddr h]
  rfl

theorem State.write_stackAddr {s : State} (h : s.bank[0] = .sysRam) (sp v : Byte) :
    s.write (stackAddr sp) v = some (s.setRam (s.ram.write (256 + sp.toNat) v)) := by
  rw [State.write_of_locate (State.locate_stackAddr h sp), State.bankAt_stackAddr h]
  rfl

/-- A byte stored at a stack address stands in system RAM afterwards. -/
theorem State.ram_of_write_stackAddr {s t : State} {sp v : Byte} (h : s.bank[0] = .sysRam)
    (hw : s.write (stackAddr sp) v = some t) : t.ram.read (256 + sp.toNat) = v := by
  rw [State.write_stackAddr h] at hw
  cases hw
  exact Memory.read_write_same _ _ _

theorem push_of_sysRam {s : State} (h : s.bank[0] = .sysRam) (v : Byte) :
    push v s = .ok () ((s.setRam (s.ram.write (256 + s.sp.toNat) v)).setSp (s.sp - 1)) :=
  push_of_write (State.write_stackAddr h s.sp v)

theorem pop_of_sysRam {s : State} (h : s.bank[0] = .sysRam) :
    pop s = .ok (s.ram.read (256 + (s.sp + 1).toNat)) (s.setSp (s.sp + 1)) :=
  pop_of_read (State.read_stackAddr h _)

/-! ### Initialisation -/

/-- A machine that an initialisation builds is one that `CpuInit` set the registers of (R300, R302). -/
theorem init_eq_machine {d : RomDescriptor} {selector : Option Selector} {ramInit sramInit : Memory}
    {pcOverride : Option Word} {ext : Bool} {s : State}
    (h : init d selector ramInit sramInit pcOverride ext = .machine s) :
    ∃ b pc, busInit d selector ramInit sramInit = .ok b ∧ s = b.withCpu pc ext := by
  unfold init at h
  split at h
  · cases h
  · rename_i b hb
    unfold cpuInit at h
    split at h
    · cases h
      exact ⟨b, _, hb, rfl⟩
    · split at h <;> cases h
      exact ⟨b, _, hb, rfl⟩

/-! ### The Reserved bit -/

@[simp] theorem State.keepReserved_flag_R (s : State) : s.keepReserved.flag .R = true :=
  getFlag_putFlag_same s.p .R true

/-- PLP and RTI, the two writers of the Reserved bit, set it (R20). -/
theorem exec_sets_reserved {i : Instr} {s t : State} (h : exec i s = .next t)
    (hm : i.mnemonic = .PLP ∨ i.mnemonic = .RTI) : t.flag .R = true := by
  have hpull : ∀ v, getFlag (pullImage v) .R = true := fun v => by simp [getFlag_pullImage]
  have hrun := handler_of_exec_next h
  rcases hm with hm | hm <;> rw [hm] at hrun
  · obtain ⟨v, -, rfl⟩ := opPlp_ok_iff.mp hrun
    exact hpull v
  · obtain ⟨v, lo, hi, -, -, -, rfl⟩ := returnFromVector_ok_iff.mp hrun
    exact hpull v

/-- No instruction clears the Reserved bit: one that is no writer of it leaves it, and its writers set it. -/
theorem exec_keeps_reserved {i : Instr} {s t : State} (hs : s.flag .R = true) (h : exec i s = .next t) :
    t.flag .R = true := by
  by_cases hm : i.mnemonic ∈ flagWriters .R
  · exact exec_sets_reserved h (by simpa [flagWriters] using hm)
  · rw [exec_keeps_flag h hm, hs]

theorem pushImage_bit5 (p : Byte) : (pushImage p).getLsbD 5 = true := getFlag_pushImage p .R

/-- The copy PHP leaves at the old SP has bit 5 set (R20). -/
theorem exec_php_pushes_reserved {s t : State} (hb : s.bank[0] = .sysRam) (h : exec .php s = .next t) :
    (t.ram.read (256 + s.sp.toNat)).getLsbD 5 = true := by
  obtain ⟨w, hw, rfl⟩ := push_ok_iff.mp (handler_of_exec_next h)
  rw [State.setSp_ram, State.ram_of_write_stackAddr hb hw, pushImage_bit5]

/-- The copy BRK leaves below the two bytes of its return address has bit 5 set (R20, R222). -/
theorem exec_brk_pushes_reserved {s t : State} (hb : s.bank[0] = .sysRam) (h : exec .brk s = .next t) :
    (t.ram.read (256 + (s.sp - 2).toNat)).getLsbD 5 = true := by
  obtain ⟨s1, s2, s3, lo, hi, hw1, hw2, hw3, -, -, rfl⟩ := enterVector_ok_iff.mp (handler_of_exec_next h)
  obtain ⟨-, -, -, -, -, -, -, hb1, -⟩ := State.write_fields hw1
  obtain ⟨-, -, -, -, -, -, -, hb2, -⟩ := State.write_fields hw2
  have hb' : s2.bank[0] = .sysRam := by simp only [hb2, hb1, hb]
  have hsp : s.sp - 2 = s.sp - 1 - 1 := by bv_omega
  rw [hsp, State.setPc_ram, State.setP_ram, State.setSp_ram, State.ram_of_write_stackAddr hb' hw3, pushImage_bit5]

/-! ### The statements of 10_state.md -/

/-- Settles O16: the step's last line sets the Reserved bit (R307); PLP and RTI, its only writers, set it; a pushed
copy is a push image; and `CpuInit` starts `P` at 0x34. -/
theorem reservedBitIsAlwaysOne : Obligations.ReservedBitIsAlwaysOne := by
  unfold Obligations.ReservedBitIsAlwaysOne
  refine ⟨fun s u h => ?_, fun i s t hs h => exec_keeps_reserved hs h, fun i s t hm h => exec_sets_reserved h hm,
    fun s t hb => ⟨exec_php_pushes_reserved hb, exec_brk_pushes_reserved hb⟩, fun d sel ram sram pc ext s h => ?_⟩
  · obtain ⟨-, i, pc, t, -, -, rfl⟩ := step_eq_next h
    exact State.keepReserved_flag_R t
  · obtain ⟨b, pc, -, rfl⟩ := init_eq_machine h
    show getFlag 0x34 .R = true
    decide

/-- Settles O48: with bank 0 system RAM a push and a pop access RAM byte 256 + SP; SP is kept by every instruction
outside its writers; and `CpuInit` starts it at 0xFD. -/
theorem pushAndPopUseTheStackPage : Obligations.PushAndPopUseTheStackPage := by
  unfold Obligations.PushAndPopUseTheStackPage
  refine ⟨fun s v hb => ⟨?_, ?_, stackAddr_toNat s.sp⟩, fun i s t h hm => exec_keeps_sp h hm,
    fun d sel ram sram pc ext s h => ?_⟩
  · have hdown : s.sp - 1 = BitVec.ofNat 8 (s.sp.toNat + 255) := by bv_omega
    rw [push_of_sysRam hb, hdown]
  · have hup : s.sp + 1 = BitVec.ofNat 8 (s.sp.toNat + 1) := by bv_omega
    rw [pop_of_sysRam hb, hup, BitVec.toNat_ofNat]
  · obtain ⟨b, pc, -, rfl⟩ := init_eq_machine h
    rfl

end Sys2Proof.Machine

namespace Sys2Proof.Machine

/-! SUPPORT. The banked memory arbiter by bank-table entry: the place an address reaches, a read of it, the mirrors of a
system-RAM byte, the unassigned banks. Then the three statements about the memory map (R41, R43, R45, R49). -/

/-! ### The entry and the place behind an address -/

/-- The entry at index `addr >> 13` is the one the arbiter routes by (R41). -/
theorem State.bankAt_of_bank_getElem? {s : State} {addr : Word} {e : BankEntry}
    (h : s.bank[addr.toNat / 8192]? = some e) : s.bankAt addr = e := by
  obtain ⟨_, hentry⟩ := Vector.getElem?_eq_some_iff.mp h
  exact hentry

theorem State.locate_of_bankAt {s : State} {addr : Word} {e : BankEntry} (h : s.bankAt addr = e) :
    s.locate addr = e.place (addr.toNat % 8192) := by
  rw [State.locate, h]
  rfl

/-- The byte an address selects, by the entry of its bank: none behind an unassigned one (R43, R45 to R50). -/
theorem State.read_of_bankAt {s : State} {addr : Word} {e : BankEntry} (h : s.bankAt addr = e) :
    s.read addr = (e.place (addr.toNat % 8192)).map s.readPlace := by
  rw [State.read, State.locate_of_bankAt h]

theorem State.read_of_unassigned {s : State} {addr : Word} (h : s.bankAt addr = .unassigned) : s.read addr = none :=
  State.read_of_bankAt h

theorem State.write_of_unassigned {s : State} {addr : Word} (h : s.bankAt addr = .unassigned) (v : Byte) :
    s.write addr v = none := by
  rw [State.write, State.locate_of_bankAt h]
  rfl

/-! ### The mirrors of system RAM -/

/-- Mirror `i` of RAM byte `a` is `a + i * 0x0800`, with no wrap at 16 bits. -/
theorem ramMirror_toNat {i a : Nat} (hi : i < 4) (ha : a < 0x0800) :
    (BitVec.ofNat 16 (a + i * 0x0800)).toNat = a + i * 0x0800 := by
  rw [BitVec.toNat_ofNat]
  omega

theorem State.bankAt_ramMirror {s : State} (hb : s.bank[0] = .sysRam) {i a : Nat} (hi : i < 4) (ha : a < 0x0800) :
    s.bankAt (BitVec.ofNat 16 (a + i * 0x0800)) = .sysRam := by
  have hidx : bankIndex (BitVec.ofNat 16 (a + i * 0x0800)) = 0 :=
    bankIndex_of_range (Nat.zero_le _) (by rw [ramMirror_toNat hi ha]; omega)
  rw [State.bankAt_eq (by decide) hidx, hb]

/-- All four mirrors of a RAM byte reach that byte (R45). -/
theorem State.locate_ramMirror {s : State} (hb : s.bank[0] = .sysRam) {i a : Nat} (hi : i < 4) (ha : a < 0x0800) :
    s.locate (BitVec.ofNat 16 (a + i * 0x0800)) = some (.ram a) := by
  have hoff : (a + i * 0x0800) % 8192 % 2048 = a := by omega
  rw [State.locate_of_bankAt (State.bankAt_ramMirror hb hi ha), ramMirror_toNat hi ha]
  simp only [BankEntry.place, Config.ramSize, hoff]

theorem State.write_ramMirror {s : State} (hb : s.bank[0] = .sysRam) {i a : Nat} (hi : i < 4) (ha : a < 0x0800)
    (v : Byte) : s.write (BitVec.ofNat 16 (a + i * 0x0800)) v = some (s.setRam (s.ram.write a v)) := by
  rw [State.write_of_locate (State.locate_ramMirror hb hi ha), State.bankAt_ramMirror hb hi ha]
  rfl

/-! ### Banks 1 and 2 -/

theorem busInit_leaves_banks12_unassigned {d : RomDescriptor} {selector : Option Selector} {ramInit sramInit : Memory}
    {b : Bus} (h : busInit d selector ramInit sramInit = .ok b) :
    b.bank[1] = .unassigned ∧ b.bank[2] = .unassigned := by
  unfold busInit at h
  split at h
  · cases h
    exact ⟨rfl, rfl⟩
  · split at h <;> cases h
    exact ⟨rfl, rfl⟩

/-- No step writes the bank table (R31): neither the arbiter's store nor a register update does. -/
theorem step_keeps_bank {s t : State} (h : step s = .next t) : t.bank = s.bank :=
  step_respects (StatePreorder.keeps State.bank)
    (fun _ _ _ _ hw => by
      obtain ⟨-, -, -, -, -, -, -, hbank, -⟩ := State.write_fields hw
      exact hbank)
    (fun _ _ => rfl) (fun _ _ => rfl) (fun _ _ => rfl) (fun _ _ => rfl) (fun _ _ => rfl) (fun _ _ => rfl) h

/-- The addresses 0x2000 to 0x5FFF are those of banks 1 and 2 (R49). -/
theorem State.bankAt_unassigned_of_banks12 {s : State} {addr : Word} (h1 : s.bank[1] = .unassigned)
    (h2 : s.bank[2] = .unassigned) (hlo : 0x2000 ≤ addr.toNat) (hhi : addr.toNat < 0x6000) :
    s.bankAt addr = .unassigned := by
  by_cases hmid : addr.toNat < 0x4000
  · rw [State.bankAt_eq (by decide) (bankIndex_of_range (n := 1) hlo hmid), h1]
  · rw [State.bankAt_eq (by decide) (bankIndex_of_range (n := 2) (Nat.le_of_not_lt hmid) hhi), h2]

/-- An opcode that cannot be read ends the step of an unfaulted machine in an AddressingError at PC (R272, R280). -/
theorem step_of_opcode_unreadable {s : State} (hf : s.fault = none) (hr : s.read s.pc = none) :
    ∃ left, step s = .fault (.addressingError s.pc .read left) := by
  refine ⟨s.setFault (some (.addressingError s.pc .read)), ?_⟩
  simp only [step, hf, fetchInstr_of_unreadable hr, latched, FaultRecord.toFault]

/-! ### The statements of 20_memory.md -/

/-- Settles O20: each of the four addresses reaches RAM byte `a`, so the store changes that byte of system RAM, and a
read after it is one of the changed memory. -/
theorem ramIsMirroredFourTimes : Obligations.RamIsMirroredFourTimes := by
  unfold Obligations.RamIsMirroredFourTimes
  intro s i j a b v hb hi hj ha hlt
  have hw := State.write_ramMirror hb hi ha v
  refine ⟨State.read_eq_of_locate (State.locate_ramMirror hb hi ha), _, hw, rfl, ?_, fun hne => ?_⟩
  · rw [State.read_after_write hw, State.locate_ramMirror hb hj ha, State.locate_ramMirror hb hi ha,
      State.bankAt_ramMirror hb hi ha]
    exact if_pos ⟨rfl, rfl⟩
  · rw [State.read_after_write hw, State.locate_ramMirror hb hj hlt, State.locate_ramMirror hb hi ha]
    refine if_neg fun h => hne ?_
    obtain ⟨hplace, -⟩ := h
    simpa using hplace

/-- Settles O18: the entry of the address's bank fixes the place read, and an unassigned bank has none. -/
theorem readsAreRoutedByBank : Obligations.ReadsAreRoutedByBank := by
  unfold Obligations.ReadsAreRoutedByBank
  intro s addr
  have hread {e : BankEntry} (h : s.bank[addr.toNat / 8192]? = some e) :
      s.read addr = (e.place (addr.toNat % 8192)).map s.readPlace :=
    State.read_of_bankAt (State.bankAt_of_bank_getElem? h)
  exact ⟨fun h => memRead_of_some (hread h), fun h => memRead_of_some (hread h),
    fun k w h => memRead_of_some (hread h), fun h => memRead_of_none (hread h)⟩

/-- Settles O21: `BusInit` leaves entries 1 and 2 unassigned, no step writes the table, and an access through an
unassigned entry raises AddressingError. -/
theorem banks1And2AlwaysFault : Obligations.Banks1And2AlwaysFault := by
  unfold Obligations.Banks1And2AlwaysFault
  refine ⟨fun d sel ram sram pc ext s h => ?_, fun s t h => step_keeps_bank h,
    fun s addr v h1 h2 hlo hhi => ?_⟩
  · obtain ⟨b, pc, hbus, rfl⟩ := init_eq_machine h
    exact busInit_leaves_banks12_unassigned hbus
  · have hb := State.bankAt_unassigned_of_banks12 h1 h2 hlo hhi
    have hread := State.read_of_unassigned hb
    refine ⟨memRead_of_none hread, memWrite_of_none (State.write_of_unassigned hb v), fun hf hpc => ?_⟩
    subst hpc
    exact step_of_opcode_unreadable hf hread

end Sys2Proof.Machine

namespace Sys2Proof

/-! SUPPORT. The decoder read backwards: which entry and which operand bytes an answer comes from. Then the statement that
what decodes is an instruction's own bytes (R82). -/

/-- What decodes comes from the entry of its first byte. -/
theorem decode_cons_eq_decoded {ext : Bool} {op : Byte} {bytes rest : List Byte} {i : Instr}
    (h : decode ext (op :: bytes) = .decoded i rest) :
    ∃ row, opcodeEntry ext op = some row ∧ row.build.complete bytes = .decoded i rest := by
  cases he : opcodeEntry ext op with
  | none =>
    rw [decode_of_none he] at h
    cases h
  | some row => exact ⟨row, rfl, decode_cons he bytes ▸ h⟩

/-- An entry completes to an instruction it names, from the operand bytes in front of those it leaves. -/
theorem OpcodeRow.Sound.names_of_complete {n : Nat} {row : OpcodeRow} {bytes rest : List Byte} {i : Instr}
    (hs : row.Sound n) (h : row.build.complete bytes = .decoded i rest) :
    ∃ taken, bytes = taken ++ rest ∧ row.Names n i taken := by
  unfold OpcodeRow.Sound at hs
  cases hb : row.build with
  | alone j =>
    rw [hb] at h hs
    cases h
    exact ⟨[], rfl, hs⟩
  | byte f =>
    rw [hb] at h hs
    match bytes, h with
    | b :: _, rfl => exact ⟨[b], rfl, hs b⟩
  | word f =>
    rw [hb] at h hs
    match bytes, h with
    | lo :: hi :: _, rfl =>
      have hnames := hs (wordOf hi lo)
      rw [loByte_wordOf, hiByte_wordOf] at hnames
      exact ⟨[lo, hi], rfl, hnames⟩

/-- An instruction named by the entry at its opcode is encoded as that opcode and the bytes it was completed from. -/
theorem OpcodeRow.Names.encode_eq {row : OpcodeRow} {op : Byte} {i : Instr} {taken : List Byte}
    (h : row.Names op.toNat i taken) : encode i = op :: taken := by
  obtain ⟨hop, hbytes, -⟩ := h
  rw [encode, BitVec.eq_of_toNat_eq hop, hbytes]

/-- Settles O2: the answer comes from the entry of the first byte, and that entry names the instruction. -/
theorem decodedBytesAreTheEncoding : Obligations.DecodedBytesAreTheEncoding := by
  unfold Obligations.DecodedBytesAreTheEncoding
  intro ext op bytes rest i h
  obtain ⟨row, hentry, hcomplete⟩ := decode_cons_eq_decoded h
  obtain ⟨hsound, hdefined⟩ := opcodeEntry_sound hentry
  obtain ⟨taken, rfl, hnames⟩ := hsound.names_of_complete hcomplete
  have ⟨_, _, _, hmode, hoptional⟩ := hnames
  refine ⟨?_, ?_, ?_, rfl⟩
  · rw [hnames.encode_eq, List.cons_append]
  · rw [Instr.wellFormed, hoptional, hdefined]
  · rw [encode_length, Instr.length, hmode, decodeOp_of_entry hentry]

end Sys2Proof

namespace Sys2Proof.Machine

open Sys2Proof.Claims

/-! SUPPORT. The pointers of the indirect modes in numbers, what those modes resolve to where their pointer is readable,
and what a fetch answers where the bytes at PC decode. Then the two statements about addressing (R111, R118, R119). -/

/-! ### The addresses of a pointer's two bytes -/

theorem loByte_toNat (w : Word) : (loByte w).toNat = w.toNat % 256 := by simp [loByte]

theorem hiByte_toNat (w : Word) : (hiByte w).toNat = w.toNat / 256 := by
  have := w.isLt
  rw [hiByte, BitVec.extractLsb'_toNat, Nat.shiftRight_eq_div_pow]
  omega

/-- The byte after a pointer in its page: the next address, or the page's first byte where the pointer is at its last
(R118). -/
theorem samePageNext_eq (p : Word) : samePageNext p = if p.toNat % 256 = 255 then p - 255 else p + 1 := by
  apply BitVec.eq_of_toNat_eq
  have hp := p.isLt
  have hnext : (samePageNext p).toNat = p.toNat / 256 * 256 + (p.toNat % 256 + 1) % 256 := by
    simp [samePageNext, wordOf_toNat, hiByte_toNat, loByte_toNat]
  split <;> bv_omega

/-- A zero-page address in numbers (R119, R120). -/
theorem zext16_of_toNat {z : Byte} {n : Nat} (h : z.toNat = n) : zext16 z = BitVec.ofNat 16 n := by
  rw [← h, BitVec.ofNat_toNat, zext16]

/-! ### Resolving through a readable pointer -/

section
variable {s : State} {lo hi : Byte}

theorem resolve_ind_of_read {p : Word} (hl : s.read p = some lo) (hh : s.read (samePageNext p) = some hi) :
    resolve (.ind p) s = .ok (some (wordOf hi lo)) s := by
  rw [resolve_ind, M.bind_ok (memRead16_of_some hl hh), M.pure_apply]

theorem zeroPagePointer_of_read {z : Byte} (hl : s.read (zext16 z) = some lo) (hh : s.read (zext16 (z + 1)) = some hi) :
    zeroPagePointer z s = .ok (wordOf hi lo) s := memRead16_of_some hl hh

theorem resolve_izx_of_read {b : Byte} (hl : s.read (zext16 (b + s.x)) = some lo)
    (hh : s.read (zext16 (b + s.x + 1)) = some hi) : resolve (.izx b) s = .ok (some (wordOf hi lo)) s := by
  rw [resolve_izx, M.bind_ok (zeroPagePointer_of_read hl hh), M.pure_apply]

end

/-! ### What a fetch answers -/

/-- PC past an opcode byte and `n` more. -/
theorem add_one_add_ofNat (w : Word) (n : Nat) : w + 1 + BitVec.ofNat 16 n = w + BitVec.ofNat 16 (1 + n) := by
  rw [BitVec.add_assoc, BitVec.ofNat_add]
  rfl

/-- The bytes at PC, the first and those after it. -/
theorem bytesAtPc_uncons {s : State} {op : Byte} {rest : List Byte} (h : BytesAtPc s (op :: rest)) :
    s.read s.pc = some op ∧ BytesAtPc (s.setPc (s.pc + 1)) rest := by
  refine ⟨by simpa using h 0 op rfl, fun k b hk => ?_⟩
  rw [State.setPc_read, State.setPc_pc, add_one_add_ofNat, Nat.add_comm]
  exact h (k + 1) b hk

/-- Where the bytes at PC complete an entry, the fetch of its operand answers what they complete it to (R81). -/
theorem fetchOperand_of_complete {row : OpcodeRow} {s : State} {bytes : List Byte} {i : Instr}
    (h : row.build.complete bytes = .decoded i []) (hbytes : BytesAtPc s bytes) :
    fetchOperand row s = .ok i (s.setPc (s.pc + BitVec.ofNat 16 bytes.length)) := by
  cases hb : row.build with
  | alone j =>
    rw [hb] at h
    cases h
    simpa using fetchOperand_alone hb
  | byte f =>
    rw [hb] at h
    match bytes, h with
    | [b], rfl =>
      obtain ⟨hread, -⟩ := bytesAtPc_uncons hbytes
      exact fetchOperand_byte hb hread
  | word f =>
    rw [hb] at h
    match bytes, h with
    | [lo, hi], rfl =>
      obtain ⟨hlo, hrest⟩ := bytesAtPc_uncons hbytes
      obtain ⟨hhi, -⟩ := bytesAtPc_uncons hrest
      exact fetchOperand_word hb hlo hhi

/-- Where the bytes at PC decode to an instruction, the fetch answers it and moves PC past them (R80, R307). -/
theorem fetchInstr_of_decode {s : State} {bytes : List Byte} {i : Instr}
    (h : decode s.extUndoc bytes = .decoded i []) (hbytes : BytesAtPc s bytes) :
    fetchInstr s = .ok i (s.setPc (s.pc + BitVec.ofNat 16 bytes.length)) := by
  match bytes, h with
  | op :: rest, h =>
    obtain ⟨hop, hrest⟩ := bytesAtPc_uncons hbytes
    obtain ⟨row, hentry, hcomplete⟩ := decode_cons_eq_decoded h
    rw [fetchInstr_of_entry hop hentry, fetchOperand_of_complete hcomplete hrest, State.setPc_setPc, State.setPc_pc,
      add_one_add_ofNat, Nat.add_comm, List.length_cons]

/-! ### The frame of PC -/

/-- An instruction that is no branch, jump, call, return or BRK leaves PC where the fetch left it (R111). -/
theorem exec_keeps_pc {i : Instr} {s t : State} (h : exec i s = .next t) (hm : i.mnemonic ∉ pcWriters) :
    t.pc = s.pc := by
  have c : CoversWrites (fun s t => t.pc = s.pc) i.mnemonic :=
    { StatePreorder.keeps State.pc with
      write := fun _ _ _ _ hw => by
        obtain ⟨hpc, -⟩ := State.write_fields hw
        exact hpc
      setA := fun _ _ => rfl
      setX := fun _ _ _ => rfl
      setY := fun _ _ _ => rfl
      setSp := fun _ _ _ => rfl
      setPc := fun hp => absurd hp hm
      setP := fun _ _ _ _ _ => rfl }
  exact exec_respects h (handler_respects_of_covers c _)

/-! ### The statements of 40_addressing.md -/

/-- Settles O58: the fetch moves PC past the opcode and the mode's operand bytes; an instruction that is no writer of PC
leaves it there; and a step is the two in turn, on the instruction the bytes at PC decode to. -/
theorem pcAdvancesByTheLength : Obligations.PcAdvancesByTheLength := by
  unfold Obligations.PcAdvancesByTheLength
  refine ⟨fun s t i => fetchInstr_moves_pc, fun i s t => exec_keeps_pc,
    fun s t i bytes _ hdecode hbytes hm hstep => ?_⟩
  obtain ⟨-, j, pc, u, hfetch, hexec, rfl⟩ := step_eq_next hstep
  obtain rfl : i = j := by
    rw [fetchInstr_of_decode hdecode hbytes] at hfetch
    cases hfetch
    rfl
  calc u.keepReserved.pc = u.pc := rfl
    _ = (s.setPc pc).pc := exec_keeps_pc hexec hm
    _ = s.pc + 1 + BitVec.ofNat 16 i.operand.mode.operandBytes := congrArg State.pc (fetchInstr_moves_pc hfetch)
    _ = s.pc + BitVec.ofNat 16 i.operand.mode.length := add_one_add_ofNat _ _

/-- Settles O26: each mode's address is the word at its pointer, whose second byte is the next of the same page for the
indirect JMP (R118) and the next of the zero page for the pre-indexed mode (R119). -/
theorem indirectModesReadTheirPointer : Obligations.IndirectModesReadTheirPointer := by
  unfold Obligations.IndirectModesReadTheirPointer
  refine fun s lo hi => ⟨fun p hl hh => ?_, fun b hl hh => ?_⟩
  · rw [← samePageNext_eq] at hh
    exact ⟨_, resolve_ind_of_read hl hh, wordOf_toNat hi lo⟩
  · have hlow : (b + s.x).toNat = (b.toNat + s.x.toNat) % 256 := BitVec.toNat_add b s.x
    have hhigh : (b + s.x + 1).toNat = (b.toNat + s.x.toNat + 1) % 256 := by bv_omega
    rw [← zext16_of_toNat hlow] at hl
    rw [← zext16_of_toNat hhigh] at hh
    exact ⟨_, resolve_izx_of_read hl hh, wordOf_toNat hi lo⟩

end Sys2Proof.Machine

namespace Sys2Proof.Machine

open Sys2Proof.Claims

/-! SUPPORT. The flag outputs of ADD, SUB and BITF in the numbers of the statements, and the next state of ADC, SBC and BIT
where their operand byte is read. Then the two statements about them (R132, R133, R144). -/

/-! ### The outputs of the ALU in numbers -/

theorem beq_zero_eq_decide_toNat (r : Byte) : (r == 0) = decide (r.toNat = 0) := by
  rw [Bool.eq_iff_iff, beq_iff_eq, decide_eq_true_iff]
  exact BitVec.toNat_inj.symm

/-- A status byte whose Z and S are the model's tests of `r` describes `r` (R131). -/
theorem zsOf_of_getFlag {p r : Byte} (hz : getFlag p .Z = (r == 0)) (hs : getFlag p .S = r.msb) : ZSOf p r :=
  ⟨hz.trans (beq_zero_eq_decide_toNat r), hs.trans (BitVec.msb_eq_decide r)⟩

theorem zsOf_putArith (p : Byte) {o : ArithOut} (hz : o.z = (o.r == 0)) (hs : o.s = o.r.msb) :
    ZSOf (putArith p o) o.r :=
  zsOf_of_getFlag ((getFlag_putArith p o .Z).trans hz) ((getFlag_putArith p o .S).trans hs)

theorem carryNat_le_one (c : Bool) : carryNat c ≤ 1 := by cases c <;> decide

/-- The difference mod 256, without the sign of the exact one (R133). -/
theorem subF_r_eq_ofNat (a m : Byte) (c : Bool) :
    (subF a m c).r = BitVec.ofNat 8 (a.toNat + 256 - m.toNat - (1 - carryNat c)) := by
  apply BitVec.eq_of_toNat_eq
  have hm := m.isLt
  have hc := carryNat_le_one c
  simp only [subF, BitVec.toNat_ofInt, BitVec.toNat_ofNat]
  omega

/-- The exact difference is not negative where the subtrahend with its borrow is no larger than `a`. -/
theorem subF_c_eq_decide (a m : Byte) (c : Bool) :
    (subF a m c).c = decide (m.toNat + (1 - carryNat c) ≤ a.toNat) := by
  have hc := carryNat_le_one c
  simp only [subF, decide_eq_decide]
  omega

/-- ADD meets its rule (R132). -/
theorem addF_addsTo (a m : Byte) (c : Bool) (p : Byte) : AddsTo a m c p (addF a m c).r (putArith p (addF a m c)) :=
  ⟨rfl, getFlag_putArith p _ .C, getFlag_putArith p _ .V, zsOf_putArith p rfl rfl, keepsFlags_putArith p _⟩

/-- SUB meets its rule (R133). -/
theorem subF_subtractsTo (a m : Byte) (c : Bool) (p : Byte) :
    SubtractsTo a m c p (subF a m c).r (putArith p (subF a m c)) :=
  ⟨subF_r_eq_ofNat a m c, (getFlag_putArith p _ .C).trans (subF_c_eq_decide a m c), getFlag_putArith p _ .V,
    zsOf_putArith p rfl rfl, keepsFlags_putArith p _⟩

/-! ### The next state of ADC, SBC and BIT -/

section
variable {i : Instr} {s : State} {m : Byte}

theorem exec_adc_of_load (hi : i.mnemonic = .ADC) (h : loadOperand i.operand s = .ok m s) :
    exec i s = .next ((s.setA (addF s.a m (s.flag .C)).r).setP (putArith s.p (addF s.a m (s.flag .C)))) :=
  exec_of_handler_ok (u := ()) (hi ▸ opAdc_ok_iff.mpr ⟨m, h, rfl⟩)

theorem exec_sbc_of_load (hi : i.mnemonic = .SBC) (h : loadOperand i.operand s = .ok m s) :
    exec i s = .next ((s.setA (subF s.a m (s.flag .C)).r).setP (putArith s.p (subF s.a m (s.flag .C)))) :=
  exec_of_handler_ok (u := ()) (hi ▸ opSbc_ok_iff.mpr ⟨m, h, rfl⟩)

theorem exec_bit_of_load (hi : i.mnemonic = .BIT) (h : loadOperand i.operand s = .ok m s) :
    exec i s = .next (s.setP (putBit s.p (bitF s.a m))) :=
  exec_of_handler_ok (u := ()) (hi ▸ opBit_ok_iff.mpr ⟨m, h, rfl⟩)

end

/-! ### The statements of 41_alu.md -/

/-- Settles O36: both instructions end in what ADD and SUB return for A, the operand byte and the Carry, and the Decimal
flag is no input of either. -/
theorem addAndSubtractComplete : Obligations.AddAndSubtractComplete := by
  unfold Obligations.AddAndSubtractComplete
  intro i s m h
  exact ⟨fun hi => ⟨_, _, addF_addsTo s.a m (s.flag .C) s.p, exec_adc_of_load hi h⟩,
    fun hi => ⟨_, _, subF_subtractsTo s.a m (s.flag .C) s.p, exec_sbc_of_load hi h⟩⟩

/-- Settles O39: BIT writes Z, V and S as BITF returns them and no other flag. -/
theorem bitTestCompletes : Obligations.BitTestCompletes := by
  unfold Obligations.BitTestCompletes
  intro i s m hi h
  have hz := (getFlag_putBit s.p (bitF s.a m) .Z).trans (beq_zero_eq_decide_toNat (s.a &&& m))
  exact ⟨_, exec_bit_of_load hi h, hz, getFlag_putBit s.p _ .V, getFlag_putBit s.p _ .S, keepsFlags_putBit s.p _⟩

end Sys2Proof.Machine

namespace Sys2Proof.Machine

/-! SUPPORT. How an instruction ends where its operation faults, an indirect pointer that cannot be read, a word pushed
with the stack in system RAM, and what JMP and JSR answer where their target resolves. Then the two statements about
them (R219, R220). -/

/-! ### Faults of an indirect jump -/

/-- An instruction whose operation raises a fault answers it, latched in the state it left (R274). -/
theorem exec_of_handler_error {i : Instr} {s t : State} {r : FaultRecord}
    (h : handler i.mnemonic i.operand s = .error r t) : exec i s = .fault (latched r t) := by
  rw [exec_eq_handler, finish_of_error h]

/-- The low byte is read first (R60), so its fault ends a 16-bit read. -/
theorem memRead16_of_low_none {la ha : Word} {s : State} (h : s.read la = none) :
    memRead16 la ha s = .error (.addressingError la .read) s :=
  M.bind_error (memRead_of_none h)

theorem resolve_ind_of_none {p : Word} {s : State} (h : s.read p = none) :
    resolve (.ind p) s = .error (.addressingError p .read) s := by
  rw [resolve_ind, M.bind_error (memRead16_of_low_none h)]

/-! ### A word on the stack in system RAM -/

/-- Two bytes go on the stack, the high byte at the higher address (R17, R58). -/
theorem pushWord_of_sysRam {s : State} (h : s.bank[0] = .sysRam) (w : Word) :
    pushWord w s = .ok () ((s.setRam ((s.ram.write (256 + s.sp.toNat) (hiByte w)).write
      (256 + (s.sp - 1).toNat) (loByte w))).setSp (s.sp - 2)) := by
  have hsp : s.sp - 1 - 1 = s.sp - 2 := by bv_omega
  have hbank : ((s.setRam (s.ram.write (256 + s.sp.toNat) (hiByte w))).setSp (s.sp - 1)).bank[0] = .sysRam := h
  rw [pushWord, M.bind_ok (push_of_sysRam h _), push_of_sysRam hbank, State.setSp_sp, hsp]
  rfl

/-! ### JMP and JSR where their target resolves -/

section
variable {i : Instr} {s : State}

theorem exec_jmp_of_resolve {ea : Word} (hi : i.mnemonic = .JMP) (h : resolve i.operand s = .ok (some ea) s) :
    exec i s = .next (s.setPc ea) :=
  exec_of_handler_ok (u := ()) (hi ▸ opJmp_ok_iff.mpr ⟨_, h, rfl⟩)

theorem exec_jmp_of_resolve_error {r : FaultRecord} (hi : i.mnemonic = .JMP)
    (h : resolve i.operand s = .error r s) : exec i s = .fault (latched r s) :=
  exec_of_handler_error (hi ▸ M.bind_error h)

theorem exec_jsr_of_pushWord {t : State} {ea : Word} (hi : i.mnemonic = .JSR)
    (h : resolve i.operand s = .ok (some ea) s) (hp : pushWord (s.pc - 1) s = .ok () t) :
    exec i s = .next (t.setPc ea) :=
  exec_of_handler_ok (u := ()) (hi ▸ opJsr_ok_iff.mpr ⟨_, _, h, hp, rfl⟩)

end

/-! ### The statements of 45_control.md -/

/-- Settles O43: JMP sets PC to what its operand resolves to, the operand word or the word at its pointer (R118), and a
pointer in an unassigned bank faults on its first byte. -/
theorem jumpsComplete : Obligations.JumpsComplete := by
  unfold Obligations.JumpsComplete
  refine fun s a => ⟨exec_jmp_of_resolve rfl (resolve_abs s a), fun lo hi hl hh => ?_, fun h => ?_⟩
  · rw [← samePageNext_eq] at hh
    exact exec_jmp_of_resolve rfl (resolve_ind_of_read hl hh)
  · exact ⟨_, exec_jmp_of_resolve_error (i := .jmpInd a) rfl (resolve_ind_of_none h)⟩

/-- Settles O44: with bank 0 system RAM both bytes of PC - 1 are pushed, then PC is the operand word. -/
theorem jumpToSubroutineCompletes : Obligations.JumpToSubroutineCompletes := by
  unfold Obligations.JumpToSubroutineCompletes
  intro s a h
  exact exec_jsr_of_pushWord rfl (resolve_abs s a) (pushWord_of_sysRam h (s.pc - 1))

end Sys2Proof.Machine

namespace Sys2Proof

/-! SUPPORT. The lemmas of Sys2Proof/Laws/PerInstr.lean read as one statement about every instruction. Then the
statement that decoding inverts encoding. -/

open Laws.Encoding in
/-- The table entry at every instruction's opcode names it (R84, R93, R98). -/
theorem encoding_statement : ∀ i : Instr, Statement i
  | .ldaIzx b => ldaIzx b | .ldaZp b => ldaZp b | .ldaImm b => ldaImm b | .ldaAbs a => ldaAbs a
  | .ldaIzy b => ldaIzy b | .ldaZpx b => ldaZpx b | .ldaAby a => ldaAby a | .ldaAbx a => ldaAbx a
  | .ldxImm b => ldxImm b | .ldxZp b => ldxZp b | .ldxAbs a => ldxAbs a | .ldxZpy b => ldxZpy b
  | .ldxAby a => ldxAby a | .ldyImm b => ldyImm b | .ldyZp b => ldyZp b | .ldyAbs a => ldyAbs a
  | .ldyZpx b => ldyZpx b | .ldyAbx a => ldyAbx a | .staIzx b => staIzx b | .staZp b => staZp b
  | .staAbs a => staAbs a | .staIzy b => staIzy b | .staZpx b => staZpx b | .staAby a => staAby a
  | .staAbx a => staAbx a | .stxZp b => stxZp b | .stxAbs a => stxAbs a | .stxZpy b => stxZpy b | .styZp b => styZp b
  | .styAbs a => styAbs a | .styZpx b => styZpx b | .tax => tax | .tay => tay | .txa => txa | .tya => tya
  | .tsx => tsx | .txs => txs | .adcIzx b => adcIzx b | .adcZp b => adcZp b | .adcImm b => adcImm b
  | .adcAbs a => adcAbs a | .adcIzy b => adcIzy b | .adcZpx b => adcZpx b | .adcAby a => adcAby a
  | .adcAbx a => adcAbx a | .sbcIzx b => sbcIzx b | .sbcZp b => sbcZp b | .sbcImm b => sbcImm b
  | .sbcAbs a => sbcAbs a | .sbcIzy b => sbcIzy b | .sbcZpx b => sbcZpx b | .sbcAby a => sbcAby a
  | .sbcAbx a => sbcAbx a | .andIzx b => andIzx b | .andZp b => andZp b | .andImm b => andImm b
  | .andAbs a => andAbs a | .andIzy b => andIzy b | .andZpx b => andZpx b | .andAby a => andAby a
  | .andAbx a => andAbx a | .oraIzx b => oraIzx b | .oraZp b => oraZp b | .oraImm b => oraImm b
  | .oraAbs a => oraAbs a | .oraIzy b => oraIzy b | .oraZpx b => oraZpx b | .oraAby a => oraAby a
  | .oraAbx a => oraAbx a | .eorIzx b => eorIzx b | .eorZp b => eorZp b | .eorImm b => eorImm b
  | .eorAbs a => eorAbs a | .eorIzy b => eorIzy b | .eorZpx b => eorZpx b | .eorAby a => eorAby a
  | .eorAbx a => eorAbx a | .cmpIzx b => cmpIzx b | .cmpZp b => cmpZp b | .cmpImm b => cmpImm b
  | .cmpAbs a => cmpAbs a | .cmpIzy b => cmpIzy b | .cmpZpx b => cmpZpx b | .cmpAby a => cmpAby a
  | .cmpAbx a => cmpAbx a | .cpxImm b => cpxImm b | .cpxZp b => cpxZp b | .cpxAbs a => cpxAbs a
  | .cpyImm b => cpyImm b | .cpyZp b => cpyZp b | .cpyAbs a => cpyAbs a | .bitZp b => bitZp b | .bitAbs a => bitAbs a
  | .incZp b => incZp b | .incAbs a => incAbs a | .incZpx b => incZpx b | .incAbx a => incAbx a | .decZp b => decZp b
  | .decAbs a => decAbs a | .decZpx b => decZpx b | .decAbx a => decAbx a | .inx => inx | .iny => iny | .dex => dex
  | .dey => dey | .aslZp b => aslZp b | .aslAcc => aslAcc | .aslAbs a => aslAbs a | .aslZpx b => aslZpx b
  | .aslAbx a => aslAbx a | .lsrZp b => lsrZp b | .lsrAcc => lsrAcc | .lsrAbs a => lsrAbs a | .lsrZpx b => lsrZpx b
  | .lsrAbx a => lsrAbx a | .rolZp b => rolZp b | .rolAcc => rolAcc | .rolAbs a => rolAbs a | .rolZpx b => rolZpx b
  | .rolAbx a => rolAbx a | .rorZp b => rorZp b | .rorAcc => rorAcc | .rorAbs a => rorAbs a | .rorZpx b => rorZpx b
  | .rorAbx a => rorAbx a | .bcc b => bcc b | .bcs b => bcs b | .beq b => beq b | .bne b => bne b | .bmi b => bmi b
  | .bpl b => bpl b | .bvc b => bvc b | .bvs b => bvs b | .jmpAbs a => jmpAbs a | .jmpInd a => jmpInd a
  | .jsr a => jsr a | .rts => rts | .brk => brk | .rti => rti | .pha => pha | .pla => pla | .php => php | .plp => plp
  | .clc => clc | .sec => sec | .cli => cli | .sei => sei | .cld => cld | .sed => sed | .clv => clv | .nop => nop
  | .laxIzx b => laxIzx b | .laxZp b => laxZp b | .laxAbs a => laxAbs a | .laxIzy b => laxIzy b
  | .laxZpy b => laxZpy b | .laxAby a => laxAby a | .saxIzx b => saxIzx b | .saxZp b => saxZp b
  | .saxAbs a => saxAbs a | .saxZpy b => saxZpy b | .sloIzx b => sloIzx b | .sloZp b => sloZp b
  | .sloAbs a => sloAbs a | .sloIzy b => sloIzy b | .sloZpx b => sloZpx b | .sloAby a => sloAby a
  | .sloAbx a => sloAbx a | .rlaIzx b => rlaIzx b | .rlaZp b => rlaZp b | .rlaAbs a => rlaAbs a
  | .rlaIzy b => rlaIzy b | .rlaZpx b => rlaZpx b | .rlaAby a => rlaAby a | .rlaAbx a => rlaAbx a
  | .sreIzx b => sreIzx b | .sreZp b => sreZp b | .sreAbs a => sreAbs a | .sreIzy b => sreIzy b
  | .sreZpx b => sreZpx b | .sreAby a => sreAby a | .sreAbx a => sreAbx a | .rraIzx b => rraIzx b
  | .rraZp b => rraZp b | .rraAbs a => rraAbs a | .rraIzy b => rraIzy b | .rraZpx b => rraZpx b
  | .rraAby a => rraAby a | .rraAbx a => rraAbx a | .dcpIzx b => dcpIzx b | .dcpZp b => dcpZp b
  | .dcpAbs a => dcpAbs a | .dcpIzy b => dcpIzy b | .dcpZpx b => dcpZpx b | .dcpAby a => dcpAby a
  | .dcpAbx a => dcpAbx a | .isbIzx b => isbIzx b | .isbZp b => isbZp b | .isbAbs a => isbAbs a
  | .isbIzy b => isbIzy b | .isbZpx b => isbZpx b | .isbAby a => isbAby a | .isbAbx a => isbAbx a
  | .nopZp04 b => nopZp04 b | .nopAbs0C a => nopAbs0C a | .nopZpx14 b => nopZpx14 b | .nopImp1A => nopImp1A
  | .nopAbx1C a => nopAbx1C a | .nopZpx34 b => nopZpx34 b | .nopImp3A => nopImp3A | .nopAbx3C a => nopAbx3C a
  | .nopZp44 b => nopZp44 b | .nopZpx54 b => nopZpx54 b | .nopImp5A => nopImp5A | .nopAbx5C a => nopAbx5C a
  | .nopZp64 b => nopZp64 b | .nopZpx74 b => nopZpx74 b | .nopImp7A => nopImp7A | .nopAbx7C a => nopAbx7C a
  | .nopImm80 b => nopImm80 b | .nopImm82 b => nopImm82 b | .nopImm89 b => nopImm89 b | .nopImmC2 b => nopImmC2 b
  | .nopZpxD4 b => nopZpxD4 b | .nopImpDA => nopImpDA | .nopAbxDC a => nopAbxDC a | .nopImmE2 b => nopImmE2 b
  | .sbcImmEB b => sbcImmEB b | .nopZpxF4 b => nopZpxF4 b | .nopImpFA => nopImpFA | .nopAbxFC a => nopAbxFC a

/-- Settles O1: the entry at the instruction's opcode completes its operand bytes to it, and the entry is defined where
the instruction is well formed. -/
theorem decodeOfEncodeIsTheInstruction : Obligations.DecodeOfEncodeIsTheInstruction := by
  unfold Obligations.DecodeOfEncodeIsTheInstruction
  intro ext i rest hwf
  obtain ⟨row, htable, -, -, hoptional, hcomplete⟩ := encoding_statement i
  have hentry : opcodeEntry ext i.opcode = some row := opcodeEntry_of_row htable (by rw [hoptional]; exact hwf)
  rw [encode, List.cons_append, decode_cons hentry, hcomplete]

end Sys2Proof

namespace Sys2Proof.Machine

open Sys2Proof.Claims

/-! SUPPORT. What a store leaves of the memories' legality, of the bank table with the launch parameters, and of the
program-ROM image. Then the four statements about what every step keeps. -/

/-! ### Legal memories -/

/-- The invariant but for the Reserved bit: canonical memories inside their sizes under a legal bank table. -/
def State.MemoriesLegal (s : State) : Prop :=
  (s.ram.wf = true ∧ s.ram.within Config.ramSize = true) ∧
  (s.sram.wf = true ∧ s.sram.within Config.saveRamSize = true) ∧
  (s.prg.wf = true ∧ s.prg.within (Config.unitSize * s.prgUnits) = true) ∧
  s.legalBanks = true

theorem State.inv_iff {s : State} : s.Inv ↔ s.MemoriesLegal ∧ s.flag .R = true := by
  simp only [State.Inv, State.MemoriesLegal, and_assoc]

/-- A byte replaced inside its memory leaves the memories legal. -/
theorem State.writePlace_memoriesLegal {s : State} {pl : Place} (hs : s.MemoriesLegal) (hpl : pl.inside s.prgUnits)
    (v : Byte) : (s.writePlace v pl).MemoriesLegal := by
  obtain ⟨⟨hram, hramIn⟩, ⟨hsram, hsramIn⟩, ⟨hprg, hprgIn⟩, hbanks⟩ := hs
  cases pl with
  | ram i =>
    exact ⟨⟨Memory.write_wf i v hram, Memory.write_within v hpl hramIn⟩, ⟨hsram, hsramIn⟩, ⟨hprg, hprgIn⟩, hbanks⟩
  | saveRam i =>
    exact ⟨⟨hram, hramIn⟩, ⟨Memory.write_wf i v hsram, Memory.write_within v hpl hsramIn⟩, ⟨hprg, hprgIn⟩, hbanks⟩
  | prg i =>
    exact ⟨⟨hram, hramIn⟩, ⟨hsram, hsramIn⟩, ⟨Memory.write_wf i v hprg, Memory.write_within v hpl hprgIn⟩, hbanks⟩

theorem State.write_memoriesLegal {s t : State} {a : Word} {v : Byte} (hw : s.write a v = some t)
    (hs : s.MemoriesLegal) : t.MemoriesLegal := by
  obtain ⟨pl, hl, ⟨-, rfl⟩ | ⟨-, rfl⟩⟩ := State.write_cases hw
  · have ⟨_, _, _, hbanks⟩ := hs
    exact State.writePlace_memoriesLegal hs (State.locate_inside hbanks hl) v
  · exact hs

theorem step_keeps_memoriesLegal {s t : State} (hs : s.MemoriesLegal) (h : step s = .next t) : t.MemoriesLegal :=
  step_respects (StatePreorder.preserves State.MemoriesLegal) (fun _ _ _ _ hw => State.write_memoriesLegal hw)
    (fun _ _ => id) (fun _ _ => id) (fun _ _ => id) (fun _ _ => id) (fun _ _ => id) (fun _ _ => id) h hs

/-! ### The bank table, the launch parameters and the fault latch -/

/-- The fields no instruction writes (R5, R31, R34). -/
def State.setup (s : State) : Vector BankEntry 8 × Nat × Bool × Option FaultRecord :=
  (s.bank, s.prgUnits, s.extUndoc, s.fault)

theorem State.setup_eq_iff {s t : State} : t.setup = s.setup ↔
    t.bank = s.bank ∧ t.prgUnits = s.prgUnits ∧ t.extUndoc = s.extUndoc ∧ t.fault = s.fault := by
  simp only [State.setup, Prod.mk.injEq]

theorem State.write_setup {s t : State} {a : Word} {v : Byte} (hw : s.write a v = some t) : t.setup = s.setup := by
  obtain ⟨-, -, -, -, -, -, hunits, hbank, hext, hfault⟩ := State.write_fields hw
  exact State.setup_eq_iff.mpr ⟨hbank, hunits, hext, hfault⟩

theorem exec_keeps_setup {i : Instr} {s t : State} (h : exec i s = .next t) : t.setup = s.setup :=
  exec_respects h (handler_respects (StatePreorder.keeps State.setup) (fun _ _ _ _ hw => State.write_setup hw)
    (fun _ _ => rfl) (fun _ _ => rfl) (fun _ _ => rfl) (fun _ _ => rfl) (fun _ _ => rfl) (fun _ _ => rfl) _ _)

theorem step_keeps_setup {s t : State} (h : step s = .next t) : t.setup = s.setup := by
  obtain ⟨-, i, pc, u, -, hexec, rfl⟩ := step_eq_next h
  exact (exec_keeps_setup hexec : u.setup = (s.setPc pc).setup)

/-! ### Program ROM -/

/-- Where no bank is a writable slice a store leaves the image (R48). -/
theorem State.write_prg {s t : State} {a : Word} {v : Byte} (hs : noWritableRom s) (hw : s.write a v = some t) :
    t.prg = s.prg := by
  obtain ⟨pl, hl, ⟨hwritable, rfl⟩ | ⟨-, rfl⟩⟩ := State.write_cases hw
  · cases hb : s.bankAt a with
    | unassigned => rw [hb] at hwritable; cases hwritable
    | sysRam => rw [State.locate_of_bankAt hb] at hl; cases hl; rfl
    | saveRam => rw [State.locate_of_bankAt hb] at hl; cases hl; rfl
    | prgSlice k w =>
      rw [hb] at hwritable
      obtain rfl : w = true := hwritable
      exact absurd hb (hs a k)
  · rfl

theorem noWritableRom_of_bank {s t : State} (hb : t.bank = s.bank) (hs : noWritableRom s) : noWritableRom t :=
  fun addr k => State.bankAt_of_bank hb addr ▸ hs addr k

/-- The relation the statement about program ROM says of a step. -/
def KeepsRom (s t : State) : Prop := noWritableRom s → t.prg = s.prg ∧ noWritableRom t

theorem keepsRom_preorder : StatePreorder KeepsRom where
  refl _ hs := ⟨rfl, hs⟩
  trans h₁ h₂ hs := by
    obtain ⟨hprg₁, ht⟩ := h₁ hs
    obtain ⟨hprg₂, hu⟩ := h₂ ht
    exact ⟨hprg₂.trans hprg₁, hu⟩

theorem keepsRom_write (s : State) (a : Word) (v : Byte) (t : State) (hw : s.write a v = some t) : KeepsRom s t := by
  obtain ⟨-, -, -, -, -, -, -, hbank, -⟩ := State.write_fields hw
  exact fun hs => ⟨State.write_prg hs hw, noWritableRom_of_bank hbank hs⟩

/-! ### The Break bit -/

/-- What PLP and RTI leave in `P` is a pull image (R21, R148). -/
theorem exec_pulls_status {i : Instr} {s t : State} (h : exec i s = .next t)
    (hm : i.mnemonic = .PLP ∨ i.mnemonic = .RTI) : ∃ v, t.p = pullImage v := by
  have hrun := handler_of_exec_next h
  rcases hm with hm | hm <;> rw [hm] at hrun
  · obtain ⟨v, -, rfl⟩ := opPlp_ok_iff.mp hrun
    exact ⟨v, rfl⟩
  · obtain ⟨v, lo, hi, -, -, -, rfl⟩ := returnFromVector_ok_iff.mp hrun
    exact ⟨v, rfl⟩

theorem exec_clears_break {i : Instr} {s t : State} (h : exec i s = .next t)
    (hm : i.mnemonic = .PLP ∨ i.mnemonic = .RTI) : t.flag .B = false := by
  obtain ⟨v, hp⟩ := exec_pulls_status h hm
  rw [State.flag_eq, hp, getFlag_pullImage, if_pos rfl]

theorem exec_keeps_break {i : Instr} {s t : State} (h : exec i s = .next t) (hplp : i.mnemonic ≠ .PLP)
    (hrti : i.mnemonic ≠ .RTI) : t.flag .B = s.flag .B :=
  exec_keeps_flag h (by simp [flagWriters, hplp, hrti])

theorem exec_keeps_break_clear {i : Instr} {s t : State} (hs : s.flag .B = false) (h : exec i s = .next t) :
    t.flag .B = false := by
  by_cases hm : i.mnemonic = .PLP ∨ i.mnemonic = .RTI
  · exact exec_clears_break h hm
  · obtain ⟨hplp, hrti⟩ := not_or.mp hm
    rw [exec_keeps_break h hplp hrti, hs]

theorem State.keepReserved_flag_B (s : State) : s.keepReserved.flag .B = s.flag .B :=
  getFlag_putFlag_other s.p true (by decide)

/-! ### The statements about every step -/

/-- Settles O13: a store lands inside its memory, so it leaves the memories legal, and the step's last line sets the
Reserved bit. -/
theorem everyStepKeepsTheStateLegal : Obligations.EveryStepKeepsTheStateLegal := by
  unfold Obligations.EveryStepKeepsTheStateLegal
  intro s t hs h
  obtain ⟨hmem, -⟩ := State.inv_iff.mp hs
  refine State.inv_iff.mpr ⟨step_keeps_memoriesLegal hmem h, ?_⟩
  obtain ⟨-, i, pc, u, -, -, rfl⟩ := step_eq_next h
  exact State.keepReserved_flag_R u

/-- Settles O14: neither a store nor a register update writes these fields, and a step that completes began unfaulted.
-/
theorem noStepWritesTheBankTable : Obligations.NoStepWritesTheBankTable := by
  unfold Obligations.NoStepWritesTheBankTable
  intro s t h
  obtain ⟨hbank, hunits, hext, hfault⟩ := State.setup_eq_iff.mp (step_keeps_setup h)
  obtain ⟨hclear, -⟩ := step_eq_next h
  exact ⟨hbank, hunits, hext, hfault.trans hclear⟩

/-- Settles O15: the one way to change the image is a store through a writable slice, and the bank table stays. -/
theorem programRomIsConstantUnderNrom : Obligations.ProgramRomIsConstantUnderNrom := by
  unfold Obligations.ProgramRomIsConstantUnderNrom
  intro s t hs h
  have hkeeps : ∀ {u v : State}, v.bank = u.bank → v.prg = u.prg → KeepsRom u v :=
    fun hbank hprg hu => ⟨hprg, noWritableRom_of_bank hbank hu⟩
  exact step_respects keepsRom_preorder keepsRom_write (fun _ _ => hkeeps rfl rfl) (fun _ _ => hkeeps rfl rfl)
    (fun _ _ => hkeeps rfl rfl) (fun _ _ => hkeeps rfl rfl) (fun _ _ => hkeeps rfl rfl) (fun _ _ => hkeeps rfl rfl) h hs

/-- Settles O17: PLP and RTI clear Break, every other instruction leaves it, and so does the step's last line. -/
theorem breakBitNeverComesBack : Obligations.BreakBitNeverComesBack := by
  unfold Obligations.BreakBitNeverComesBack
  refine ⟨fun s t hs h => ?_, fun i s t h => ⟨exec_clears_break h, exec_keeps_break h⟩⟩
  obtain ⟨-, i, pc, u, -, hexec, rfl⟩ := step_eq_next h
  rw [State.keepReserved_flag_B]
  exact exec_keeps_break_clear (s := s.setPc pc) hs hexec

end Sys2Proof.Machine

namespace Sys2Proof

open Sys2Proof.Claims Sys2Proof.Machine

/-! SUPPORT. Which opcodes have an entry, what an entry decodes and prints, and the modes each mnemonic is used with.
Then the three statements about the decoder and the disassembler (R84, R88, R89, R98). -/

/-! ### The opcodes with an entry -/

/-- An opcode has an entry exactly where neither list of R88 and R89 leaves it out: the table's 256 places, read for
both values of `EXT_UNDOC`. -/
theorem opcodeEntry_isSome_ofFin : ∀ (ext : Bool) (n : Fin 256), (opcodeEntry ext (BitVec.ofFin n)).isSome =
    (!undefinedOpcodes.contains (BitVec.ofFin n) && (ext || !optionalOpcodes.contains (BitVec.ofFin n))) := by
  decide +kernel

theorem opcodeEntry_isSome_iff {ext : Bool} {op : Byte} : (opcodeEntry ext op).isSome = true ↔
    op ∉ undefinedOpcodes ∧ (ext = true ∨ op ∉ optionalOpcodes) := by
  rw [show op = BitVec.ofFin op.toFin from rfl, opcodeEntry_isSome_ofFin]
  simp

theorem opcodeEntry_eq_none_iff {ext : Bool} {op : Byte} : opcodeEntry ext op = none ↔
    op ∈ undefinedOpcodes ∨ (ext = false ∧ op ∈ optionalOpcodes) := by
  rw [← Option.not_isSome_iff_eq_none, opcodeEntry_isSome_iff]
  by_cases hu : op ∈ undefinedOpcodes <;> simp [hu]

theorem rejected_of_entry_none {ext : Bool} {op : Byte} (h : opcodeEntry ext op = none) (rest : List Byte) :
    decode ext (op :: rest) = .rejected (.undefinedOpcode op) ∧ decodeOp ext op = (.UNK, .unknown) :=
  ⟨decode_of_none h rest, decodeOp_of_none h⟩

/-- Settles O3: the two lists say which opcodes have an entry, and a byte without one is rejected by name. -/
theorem undefinedOpcodesAreRejected : Obligations.UndefinedOpcodesAreRejected := by
  unfold Obligations.UndefinedOpcodesAreRejected
  refine fun op rest => ⟨fun hu ext => ?_, fun ho => ?_, fun hu ho ext => opcodeEntry_isSome_iff.mpr ⟨hu, .inr ho⟩⟩
  · exact rejected_of_entry_none (opcodeEntry_eq_none_iff.mpr (.inl hu)) rest
  · have hdisjoint : ∀ op ∈ optionalOpcodes, op ∉ undefinedOpcodes := by decide
    obtain ⟨hdecode, hop⟩ := rejected_of_entry_none (opcodeEntry_eq_none_iff.mpr (.inr ⟨rfl, ho⟩)) rest
    exact ⟨hdecode, hop, opcodeEntry_isSome_iff.mpr ⟨hdisjoint op ho, .inl rfl⟩⟩

/-- Settles O4: nine closed runs of the decoder. -/
theorem wordsDecodeAsTheTableSays : Obligations.WordsDecodeAsTheTableSays := by
  unfold Obligations.WordsDecodeAsTheTableSays
  decide

/-! ### The disassembler -/

theorem disasmChars_of_entry {ext : Bool} {b0 : Byte} {row : OpcodeRow} (h : opcodeEntry ext b0 = some row)
    (b1 b2 : Byte) :
    disasmChars ext b0 b1 b2 = (mnemonicChars row.mnemonic ++ operandChars row.mode b1 b2, row.mode.length) := by
  rw [disasmChars, decodeOp_of_entry h]

theorem disasmChars_of_none {ext : Bool} {b0 : Byte} (h : opcodeEntry ext b0 = none) (b1 b2 : Byte) :
    disasmChars ext b0 b1 b2 = (['U', 'N', 'K'], 1) := by
  rw [disasmChars, decodeOp_of_none h]
  rfl

/-- The text uses no byte beyond the mode's length (R96). -/
theorem operandChars_of_length_le_two {m : AddrMode} (h : m.length ≤ 2) (b1 b2 c2 : Byte) :
    operandChars m b1 c2 = operandChars m b1 b2 := by
  cases m with
  | absolute | absoluteX | absoluteY | indirect => exact absurd h (by decide)
  | _ => rfl

theorem operandChars_of_length_eq_one {m : AddrMode} (h : m.length = 1) (b1 b2 c1 c2 : Byte) :
    operandChars m c1 c2 = operandChars m b1 b2 := by
  cases m with
  | implied | accumulator | unknown => rfl
  | _ => exact absurd h (by decide)

/-- Two operand bytes are enough for every format (R81). -/
theorem Build.complete_ne_rejected (b : Build) (b1 b2 : Byte) (r : Reject) : b.complete [b1, b2] ≠ .rejected r := by
  cases b <;> exact DecodeResult.noConfusion

/-- Settles O5: both read the entry of the first byte, which names the decoded instruction; three bytes are rejected
only where there is no entry. -/
theorem disassemblerAndDecoderAgree : Obligations.DisassemblerAndDecoderAgree := by
  unfold Obligations.DisassemblerAndDecoderAgree
  refine fun ext b0 b1 b2 c1 c2 => ⟨fun i rest h => ?_, fun r h => ?_⟩
  · obtain ⟨row, hentry, hcomplete⟩ := decode_cons_eq_decoded h
    obtain ⟨hsound, -⟩ := opcodeEntry_sound hentry
    obtain ⟨taken, -, -, -, hmnemonic, hmode, -⟩ := hsound.names_of_complete hcomplete
    have htext := disasmChars_of_entry hentry
    rw [Instr.length, hmnemonic, hmode]
    refine ⟨by rw [htext], by rw [htext], fun hl => ?_, fun hl => ?_⟩
    · rw [htext, htext, operandChars_of_length_le_two hl]
    · rw [htext, htext, operandChars_of_length_eq_one hl]
  · cases hentry : opcodeEntry ext b0 with
    | none => exact disasmChars_of_none hentry b1 b2
    | some row =>
      rw [decode_cons hentry] at h
      exact absurd h (row.build.complete_ne_rejected b1 b2 r)

/-! ### The modes of a mnemonic -/

/-- The modes a mnemonic is used with (R86, R87, R89). -/
def Mnemonic.modes : Mnemonic → List AddrMode
  | .LDA | .ADC | .SBC | .AND | .ORA | .EOR | .CMP =>
    [.immediate, .zeropage, .zeropageX, .absolute, .absoluteX, .absoluteY, .indirectX, .indirectY]
  | .STA | .SLO | .RLA | .SRE | .RRA | .DCP | .ISB =>
    [.zeropage, .zeropageX, .absolute, .absoluteX, .absoluteY, .indirectX, .indirectY]
  | .LDX => [.immediate, .zeropage, .zeropageY, .absolute, .absoluteY]
  | .LDY => [.immediate, .zeropage, .zeropageX, .absolute, .absoluteX]
  | .LAX => [.zeropage, .zeropageY, .absolute, .absoluteY, .indirectX, .indirectY]
  | .STX => [.zeropage, .zeropageY, .absolute]
  | .STY => [.zeropage, .zeropageX, .absolute]
  | .SAX => [.zeropage, .zeropageY, .absolute, .indirectX]
  | .CPX | .CPY => [.immediate, .zeropage, .absolute]
  | .BIT => [.zeropage, .absolute]
  | .INC | .DEC => [.zeropage, .zeropageX, .absolute, .absoluteX]
  | .ASL | .LSR | .ROL | .ROR => [.accumulator, .zeropage, .zeropageX, .absolute, .absoluteX]
  | .BCC | .BCS | .BEQ | .BNE | .BMI | .BPL | .BVC | .BVS => [.relative]
  | .JMP => [.absolute, .indirect]
  | .JSR => [.absolute]
  | .NOP => [.implied, .immediate, .zeropage, .zeropageX, .absolute, .absoluteX]
  | .UNK => []
  | _ => [.implied]

theorem mode_mem_modes (i : Instr) : i.operand.mode ∈ i.mnemonic.modes := by
  cases i <;> exact List.elem_iff.mp rfl

end Sys2Proof

namespace Sys2Proof.Machine

open Sys2Proof.Claims

/-! SUPPORT. The modes that read no pointer, NOP, what a step answers for what its fetch and its instruction answer, and
every way a step can fault. Then the five statements about the step (R271, R272, R274, R280, R307). -/

/-! ### The modes that read no pointer -/

/-- The modes whose address is found without a read of memory (R113 to R117, R121). -/
def directModes : List AddrMode :=
  [.implied, .accumulator, .immediate, .zeropage, .zeropageX, .zeropageY, .absolute, .absoluteX, .absoluteY, .relative]

theorem resolve_of_direct {o : Operand} (h : o.mode ∈ directModes) (s : State) : ∃ ea, resolve o s = .ok ea s := by
  cases o with
  | ind | izx | izy => exact absurd h (by simp [Operand.mode, directModes])
  | _ => exact ⟨_, rfl⟩

/-- NOP in every form completes and changes nothing (R241, R258): no form of it has a pointer. -/
theorem exec_nop {i : Instr} (hi : i.mnemonic = .NOP) (s : State) : exec i s = .next s := by
  have hmode := mode_mem_modes i
  rw [hi] at hmode
  have hdirect : ∀ m ∈ Mnemonic.NOP.modes, m ∈ directModes := by decide
  exact exec_of_handler_ok (u := ()) (hi ▸ opNop_ok_iff.mpr ⟨resolve_of_direct (hdirect _ hmode) s, rfl⟩)

/-! ### A step from its parts -/

section
variable {s t : State}

theorem step_of_fetch_error {r : FaultRecord} (hf : s.fault = none) (h : fetchInstr s = .error r t) :
    step s = .fault (latched r t) := by
  simp only [step, hf, h]

/-- A step that fetched an instruction is that instruction, with the Reserved bit kept 1 (R307). -/
theorem step_of_fetch_ok {i : Instr} (hf : s.fault = none) (h : fetchInstr s = .ok i t) :
    step s = keepReserved (exec i t) := by
  simp only [step, hf, h]
  cases exec i t <;> rfl

theorem step_of_latched {r : FaultRecord} (h : s.fault = some r) : step s = .fault (r.toFault s) := by
  simp only [step, h]

end

theorem leftState_toFault (r : FaultRecord) (s : State) : leftState (r.toFault s) = s := by cases r <;> rfl

/-- The state of a latched fault repeats it (R274). -/
theorem step_leftState_latched (r : FaultRecord) (t : State) :
    step (leftState (latched r t)) = .fault (latched r t) := by
  rw [latched, leftState_toFault, step_of_latched (State.setFault_fault ..)]

/-! ### How a step faults -/

theorem State.locate_eq_none_iff {s : State} {a : Word} : s.locate a = none ↔ s.bankAt a = .unassigned := by
  rw [State.locate]
  cases s.bankAt a <;> simp [BankEntry.place]

/-- What an unfaulted machine's step may raise: a DecodeError at PC (R271), or an AddressingError at an address
nothing is assigned to (R272). -/
def RaisedFrom (s : State) (r : FaultRecord) : Prop :=
  (∃ op, r = .decodeError op s.pc) ∨ ∃ addr kind, r = .addressingError addr kind ∧ s.bankAt addr = .unassigned

/-- An instruction's fault is an AddressingError, latched in the state it left. -/
theorem exec_eq_latched {i : Instr} {s : State} {f : Fault} (h : exec i s = .fault f) :
    ∃ addr kind t, f = latched (.addressingError addr kind) t ∧ s.bankAt addr = .unassigned := by
  obtain ⟨r, t, hrun, rfl⟩ : ∃ r t, handler i.mnemonic i.operand s = .error r t ∧ f = latched r t := by
    rw [exec_eq_handler, finish] at h
    split at h <;> cases h
    exact ⟨_, _, by assumption, rfl⟩
  have horderly := handler_orderly i.mnemonic i.operand s
  rw [hrun] at horderly
  obtain ⟨addr, kind, rfl, hl⟩ := horderly
  exact ⟨addr, kind, t, rfl, State.locate_eq_none_iff.mp hl⟩

/-- A step that faults repeats the latched fault, or latches the one its fetch or its instruction raised. -/
theorem step_eq_fault {s : State} {f : Fault} (h : step s = .fault f) :
    (∃ r, s.fault = some r ∧ f = r.toFault s) ∨ (s.fault = none ∧ ∃ r t, f = latched r t ∧ RaisedFrom s r) := by
  cases hf : s.fault with
  | some r =>
    rw [step_of_latched hf] at h
    cases h
    exact .inl ⟨r, rfl, rfl⟩
  | none =>
    refine .inr ⟨rfl, ?_⟩
    cases hfetch : fetchInstr s with
    | error r t =>
      rw [step_of_fetch_error hf hfetch] at h
      cases h
      refine ⟨r, t, rfl, ?_⟩
      rcases fetchInstr_eq_error hfetch with ⟨op, rfl, -, -⟩ | ⟨addr, kind, rfl, hl⟩
      · exact .inl ⟨op, rfl⟩
      · exact .inr ⟨addr, kind, rfl, State.locate_eq_none_iff.mp hl⟩
    | ok i t =>
      rw [step_of_fetch_ok hf hfetch] at h
      cases hexec : exec i t with
      | fault g =>
        rw [hexec] at h
        cases h
        obtain ⟨addr, kind, u, rfl, hunassigned⟩ := exec_eq_latched hexec
        rw [fetchInstr_eq_ok hfetch] at hunassigned
        exact ⟨_, u, rfl, .inr ⟨addr, kind, rfl, hunassigned⟩⟩
      | next | refused => rw [hexec] at h; cases h

theorem step_ne_refused (s : State) (r : Refusal) : step s ≠ .refused r := by
  intro h
  cases hf : s.fault with
  | some f => rw [step_of_latched hf] at h; cases h
  | none =>
    cases hfetch : fetchInstr s with
    | error f t => rw [step_of_fetch_error hf hfetch] at h; cases h
    | ok i t =>
      rw [step_of_fetch_ok hf hfetch] at h
      cases hexec : exec i t with
      | refused q => exact exec_ne_refused i t q hexec
      | next | fault => rw [hexec] at h; cases h

/-- With the four cartridge banks assigned only banks 1 and 2 are not (R49, R53). -/
theorem unassigned_in_banks12 {s : State} (hlegal : s.legalBanks = true) (hcart : cartridgeAssigned s) {addr : Word}
    (h : s.bankAt addr = .unassigned) : 0x2000 ≤ addr.toNat ∧ addr.toNat < 0x6000 := by
  obtain ⟨h0, -, -, h3, -⟩ := State.legalBanks_iff.mp hlegal
  obtain ⟨h4, h5, h6, h7⟩ := hcart
  have hne : ∀ n (hn : n < 8), s.bank[n] ≠ .unassigned → addr.toNat / 8192 ≠ n := by
    rintro n hn hassigned rfl
    exact hassigned h
  have hlt := addr.isLt
  have := hne 0 (by decide) (by simp [h0])
  have := hne 3 (by decide) (by simp [h3])
  have := hne 4 (by decide) h4
  have := hne 5 (by decide) h5
  have := hne 6 (by decide) h6
  have := hne 7 (by decide) h7
  omega

/-! ### What a fetch's first byte makes of it -/

/-- The entry an opcode is decoded by, read off `Decode(op)`: only an undefined opcode has no mode (R84). -/
theorem opcodeEntry_of_decodeOp {ext : Bool} {op : Byte} (h : (decodeOp ext op).2 ≠ .unknown) :
    ∃ row, opcodeEntry ext op = some row ∧ decodeOp ext op = (row.mnemonic, row.mode) ∧ row.Sound op.toNat := by
  cases hentry : opcodeEntry ext op with
  | none => exact absurd (congrArg Prod.snd (decodeOp_of_none hentry)) h
  | some row => exact ⟨row, rfl, decodeOp_of_entry hentry, (opcodeEntry_sound hentry).1⟩

theorem opcodeEntry_none_of_unknown {ext : Bool} {op : Byte} (h : (decodeOp ext op).2 = .unknown) :
    opcodeEntry ext op = none := by
  cases hentry : opcodeEntry ext op with
  | none => rfl
  | some row =>
    rw [decodeOp_of_entry hentry] at h
    exact absurd h (opcodeEntry_sound hentry).1.mode_ne_unknown

theorem mode_ne_unknown_of_operandBytes {m : AddrMode} (h : 1 ≤ m.operandBytes) : m ≠ .unknown := by
  rintro rfl
  exact absurd h (by decide)

section
variable {s : State} {op : Byte} {row : OpcodeRow}

theorem step_of_operand_error {r : FaultRecord} {t : State} (hf : s.fault = none) (hop : s.read s.pc = some op)
    (hentry : opcodeEntry s.extUndoc op = some row) (h : fetchOperand row (s.setPc (s.pc + 1)) = .error r t) :
    step s = .fault (latched r t) :=
  step_of_fetch_error hf ((fetchInstr_of_entry hop hentry).trans h)

/-- An unreadable first operand byte ends the fetch, but for an optional immediate NOP. -/
theorem fetchOperand_first_unreadable {n : Nat} (hsound : row.Sound n) (hbytes : 1 ≤ row.mode.operandBytes)
    (hnop : (row.mnemonic, row.mode) ≠ (.NOP, .immediate)) (h : s.read s.pc = none) :
    ∃ t, fetchOperand row s = .error (.addressingError s.pc .read) t := by
  obtain ⟨halone, -, -⟩ := hsound.operandBytes
  cases hb : row.build with
  | alone i => rw [halone i hb] at hbytes; cases hbytes
  | byte f => exact fetchOperand_byte_unreadable hb hnop h
  | word f => exact ⟨s, fetchOperand_word_low_unreadable hb h⟩

theorem fetchOperand_second_unreadable {n : Nat} {b : Byte} (hsound : row.Sound n) (hbytes : row.mode.operandBytes = 2)
    (h : s.read s.pc = some b) (h' : s.read (s.pc + 1) = none) :
    ∃ t, fetchOperand row s = .error (.addressingError (s.pc + 1) .read) t := by
  obtain ⟨halone, hbyte, -⟩ := hsound.operandBytes
  cases hb : row.build with
  | alone i => rw [halone i hb] at hbytes; cases hbytes
  | byte f => rw [hbyte f hb] at hbytes; cases hbytes
  | word f => exact ⟨_, fetchOperand_word_high_unreadable hb h h'⟩

/-- An optional immediate NOP is fetched as a NOP with PC past its operand byte, which is not read (R258). -/
theorem fetchOperand_immediate_nop {n : Nat} (hsound : row.Sound n)
    (hnop : (row.mnemonic, row.mode) = (.NOP, .immediate)) :
    ∃ i, i.mnemonic = .NOP ∧ fetchOperand row s = .ok i (s.setPc (s.pc + 1)) := by
  obtain ⟨halone, -, hword⟩ := hsound.operandBytes
  obtain ⟨hmnemonic, hmode⟩ := Prod.mk.inj hnop
  unfold OpcodeRow.Sound at hsound
  cases hb : row.build with
  | alone i => have h0 := halone i hb; rw [hmode] at h0; cases h0
  | word f => have h2 := hword f hb; rw [hmode] at h2; cases h2
  | byte f =>
    rw [hb] at hsound
    obtain ⟨b, hfetch⟩ := fetchOperand_nop (s := s) hb hnop
    obtain ⟨-, -, hname, -⟩ := hsound b
    exact ⟨f b, hname.trans hmnemonic, hfetch⟩

end

/-! ### The statements about the step -/

/-- Settles O6: the fetch answers the decoded instruction with PC past its bytes, and the step's last line is common. -/
theorem stepRunsTheDecodedInstruction : Obligations.StepRunsTheDecodedInstruction := by
  unfold Obligations.StepRunsTheDecodedInstruction
  intro s i bytes hf hdecode hbytes
  exact step_of_fetch_ok hf (fetchInstr_of_decode hdecode hbytes)

/-- Settles O7: the fetch reads opcode, then operand bytes in order, and the first that cannot be read or decoded ends
it. -/
theorem fetchFaultsComeInOrder : Obligations.FetchFaultsComeInOrder := by
  unfold Obligations.FetchFaultsComeInOrder
  refine fun s hf => ⟨step_of_opcode_unreadable hf, fun op hop => ⟨fun hunknown => ?_, fun hbytes hnop hr => ?_,
    fun hbytes hfirst hr => ?_, fun hnop => ?_⟩⟩
  · exact ⟨_, step_of_fetch_error hf (fetchInstr_of_undefined hop (opcodeEntry_none_of_unknown hunknown))⟩
  · obtain ⟨row, hentry, hrow, hsound⟩ := opcodeEntry_of_decodeOp (mode_ne_unknown_of_operandBytes hbytes)
    rw [hrow] at hbytes hnop
    obtain ⟨t, herror⟩ := fetchOperand_first_unreadable (s := s.setPc (s.pc + 1)) hsound hbytes hnop hr
    exact ⟨_, step_of_operand_error hf hop hentry herror⟩
  · have hone : 1 ≤ (decodeOp s.extUndoc op).2.operandBytes := by omega
    obtain ⟨row, hentry, hrow, hsound⟩ := opcodeEntry_of_decodeOp (mode_ne_unknown_of_operandBytes hone)
    rw [hrow] at hbytes
    obtain ⟨b, hb⟩ := Option.isSome_iff_exists.mp hfirst
    rw [← add_one_one] at hr ⊢
    obtain ⟨t, herror⟩ := fetchOperand_second_unreadable (s := s.setPc (s.pc + 1)) hsound hbytes hb hr
    exact ⟨_, step_of_operand_error hf hop hentry herror⟩
  · obtain ⟨row, hentry, hrow, hsound⟩ := opcodeEntry_of_decodeOp (by rw [hnop]; exact AddrMode.noConfusion)
    obtain ⟨i, hi, hfetch⟩ := fetchOperand_immediate_nop (s := s.setPc (s.pc + 1)) hsound (hrow ▸ hnop)
    rw [step_of_fetch_ok hf ((fetchInstr_of_entry hop hentry).trans hfetch), exec_nop hi, State.setPc_setPc,
      State.setPc_pc, add_one_one]
    rfl

/-- Settles O8: the state a fault leaves has its latch set to it, and a machine whose latch is set answers it. -/
theorem faultedMachineRepeatsItsFault : Obligations.FaultedMachineRepeatsItsFault := by
  unfold Obligations.FaultedMachineRepeatsItsFault
  refine ⟨fun s f h => ?_, fun s r hr => ⟨_, step_of_latched hr, leftState_toFault r s⟩⟩
  rcases step_eq_fault h with ⟨r, hr, rfl⟩ | ⟨-, r, t, rfl, -⟩
  · rw [leftState_toFault, step_of_latched hr]
  · exact step_leftState_latched r t

/-- Settles O9: a step completes, or faults in one of the two ways an unfaulted machine can, or is refused, which no
step is. -/
theorem stepEndsInNextDecodeErrorOrAddressingError : Obligations.StepEndsInNextDecodeErrorOrAddressingError := by
  unfold Obligations.StepEndsInNextDecodeErrorOrAddressingError
  intro s hf
  cases h : step s with
  | next t =>
    obtain ⟨-, -, -, hfault⟩ := State.setup_eq_iff.mp (step_keeps_setup h)
    exact .inl ⟨t, rfl, hfault.trans hf⟩
  | refused r => exact absurd h (step_ne_refused s r)
  | fault f =>
    rcases step_eq_fault h with ⟨r, hr, -⟩ | ⟨-, r, t, rfl, ⟨op, rfl⟩ | ⟨addr, kind, rfl, -⟩⟩
    · rw [hf] at hr
      cases hr
    · exact .inr (.inl ⟨op, _, rfl⟩)
    · exact .inr (.inr ⟨addr, kind, _, rfl⟩)

/-- Settles O10: the address of an AddressingError lies in an unassigned bank, and under a cartridge those are 1 and
2. -/
theorem onlyBanks1And2FaultUnderACartridge : Obligations.OnlyBanks1And2FaultUnderACartridge := by
  unfold Obligations.OnlyBanks1And2FaultUnderACartridge
  intro s addr kind left hf hlegal hcart h
  rcases step_eq_fault h with ⟨r, hr, -⟩ | ⟨-, r, t, hlatched, ⟨op, rfl⟩ | ⟨addr', kind', rfl, hunassigned⟩⟩
  · rw [hf] at hr
    cases hr
  · cases hlatched
  · cases hlatched
    exact unassigned_in_banks12 hlegal hcart hunassigned

/-- Settles O52: no form of NOP has a pointer to read. -/
theorem nopChangesNothing : Obligations.NopChangesNothing := by
  unfold Obligations.NopChangesNothing
  exact fun i s hi => exec_nop hi s

end Sys2Proof.Machine

namespace Sys2Proof.Machine

open Sys2Proof.Claims

/-! SUPPORT. A store by the entry of its bank, the bus and the registers a successful initialisation leaves, and the two
windows of NROM. Then the five statements about stores and initialisation (R36, R44, R50 to R55, R300 to R303). -/

/-! ### A store by bank-table entry -/

/-- What a store does, by the entry of its bank (R44, R48 to R50). -/
theorem State.write_of_bankAt {s : State} {addr : Word} {e : BankEntry} (h : s.bankAt addr = e) (v : Byte) :
    s.write addr v = (e.place (addr.toNat % 8192)).map fun place => if e.writable then s.writePlace v place else s := by
  rw [State.write, State.locate_of_bankAt h, h]

/-- Settles O19: the entry of the address's bank fixes the place stored to and whether the store changes it. -/
theorem writesAreRoutedByBank : Obligations.WritesAreRoutedByBank := by
  unfold Obligations.WritesAreRoutedByBank
  intro s addr v
  have hwrite {e : BankEntry} (h : s.bank[addr.toNat / 8192]? = some e) :=
    State.write_of_bankAt (State.bankAt_of_bank_getElem? h) v
  exact ⟨fun h => memWrite_of_some (hwrite h), fun h => memWrite_of_some (hwrite h),
    fun k h => memWrite_of_some (hwrite h), fun k h => memWrite_of_some (hwrite h),
    fun h => memWrite_of_none (hwrite h)⟩

/-! ### What an initialisation leaves -/

/-- The four cartridge entries of an initialised bank table: unassigned without a selector, else the selector's slots
(R50, R51). -/
inductive CartridgeOf (d : RomDescriptor) : Option Selector → BankEntry → BankEntry → BankEntry → BankEntry → Prop
  | bare : CartridgeOf d none .unassigned .unassigned .unassigned .unassigned
  | slots {sel : Selector} {t : Vector Slot 4} (h : sel d = .ok t) :
      CartridgeOf d (some sel) t[0].entry t[1].entry t[2].entry t[3].entry

section
variable {d : RomDescriptor} {selector : Option Selector} {ramInit sramInit : Memory} {b : Bus}

theorem busInit_eq_ok (h : busInit d selector ramInit sramInit = .ok b) : ∃ b4 b5 b6 b7,
    CartridgeOf d selector b4 b5 b6 b7 ∧ b = ⟨ramInit, sramInit, d.prg, d.prgUnits, bankTable b4 b5 b6 b7⟩ := by
  unfold busInit at h
  split at h
  · cases h
    exact ⟨_, _, _, _, .bare, rfl⟩
  · split at h <;> cases h
    exact ⟨_, _, _, _, .slots (by assumption), rfl⟩

/-- PC after `CpuInit`: the override, or the word at the reset vector (R302, R303). -/
def StartsAt (s : State) (pcOverride : Option Word) : Prop :=
  (∀ v, pcOverride = some v → s.pc = v) ∧
  (pcOverride = none → ∃ lo hi, s.read 0xFFFC = some lo ∧ s.read 0xFFFD = some hi ∧ s.pc = wordOf hi lo)

theorem cpuInit_eq_machine {pcOverride : Option Word} {ext : Bool} {s : State}
    (h : cpuInit b pcOverride ext = .machine s) : s = b.withCpu s.pc ext ∧ StartsAt s pcOverride := by
  unfold cpuInit at h
  split at h
  · cases h
    exact ⟨rfl, fun w hw => Option.some.inj hw, nofun⟩
  · split at h <;> cases h
    obtain ⟨-, lo, hi, hlo, hhi, rfl⟩ := memRead16_eq_ok (by assumption)
    exact ⟨rfl, nofun, fun _ => ⟨lo, hi, hlo, hhi, rfl⟩⟩

theorem init_eq_withCpu {pcOverride : Option Word} {ext : Bool} {s : State}
    (h : init d selector ramInit sramInit pcOverride ext = .machine s) : ∃ b4 b5 b6 b7,
    CartridgeOf d selector b4 b5 b6 b7 ∧ StartsAt s pcOverride ∧
      s = Bus.withCpu ⟨ramInit, sramInit, d.prg, d.prgUnits, bankTable b4 b5 b6 b7⟩ s.pc ext := by
  unfold init at h
  split at h
  · cases h
  · rename_i bus hbus
    obtain ⟨b4, b5, b6, b7, hcart, rfl⟩ := busInit_eq_ok hbus
    obtain ⟨hs, hstart⟩ := cpuInit_eq_machine h
    exact ⟨b4, b5, b6, b7, hcart, hstart, hs⟩

/-- A selector that meets the contract of R52, or none, leaves legal cartridge entries. -/
theorem CartridgeOf.legal {b4 b5 b6 b7 : BankEntry} (h : CartridgeOf d selector b4 b5 b6 b7)
    (hrange : ∀ sel, selector = some sel → sel.InRange) :
    b4.legalCartridge d.prgUnits = true ∧ b5.legalCartridge d.prgUnits = true ∧
    b6.legalCartridge d.prgUnits = true ∧ b7.legalCartridge d.prgUnits = true := by
  cases h with
  | bare => exact ⟨rfl, rfl, rfl, rfl⟩
  | @slots sel t h =>
    have hslot : ∀ i : Fin 4, t[i].entry.legalCartridge d.prgUnits = true := fun i =>
      decide_eq_true (hrange sel rfl d t h i)
    exact ⟨hslot 0, hslot 1, hslot 2, hslot 3⟩

end

/-- Settles O11: a closed state. -/
theorem resetStateIsLegal : Obligations.ResetStateIsLegal := by
  unfold Obligations.ResetStateIsLegal
  decide

/-- Settles O12: the memories are the ones given, the bank table is legal by the selector's contract, and `P` is 0x34.
-/
theorem initialisedMachineIsLegal : Obligations.InitialisedMachineIsLegal := by
  unfold Obligations.InitialisedMachineIsLegal
  intro d selector ramInit sramInit pcOverride ext s hd hrange hram hramIn hsram hsramIn h
  obtain ⟨b4, b5, b6, b7, hcart, -, hs⟩ := init_eq_withCpu h
  obtain ⟨hprg, hprgIn⟩ := Bool.and_eq_true_iff.mp hd
  rw [hs]
  exact ⟨⟨hram, hramIn⟩, ⟨hsram, hsramIn⟩, ⟨hprg, hprgIn⟩,
    State.legalBanks_iff.mpr ⟨rfl, rfl, rfl, rfl, hcart.legal hrange⟩, (by decide : getFlag 0x34 .R = true)⟩

/-- Settles O23: the machine is the bus that `BusInit` made with the registers `CpuInit` sets. -/
theorem initialisationSetsTheMachine : Obligations.InitialisationSetsTheMachine := by
  unfold Obligations.InitialisationSetsTheMachine
  intro d selector ramInit sramInit pcOverride ext s h
  obtain ⟨b4, b5, b6, b7, -, hstart, hs⟩ := init_eq_withCpu h
  refine ⟨?_, ?_, ?_, ?_, hstart⟩ <;> rw [hs]
  · exact ⟨rfl, rfl, rfl, rfl, rfl⟩
  · exact ⟨rfl, rfl, rfl, rfl⟩
  · exact ⟨rfl, rfl, rfl, rfl⟩
  · exact ⟨rfl, rfl⟩

/-! ### NROM -/

/-- The slots NROM returns: one unit twice, or two units in order (R53). -/
theorem nrom_eq_ok {d : RomDescriptor} {slots : Vector Slot 4} (h : nrom d = .ok slots) :
    (d.prgUnits = 1 ∧ slots = #v[⟨0, false⟩, ⟨1, false⟩, ⟨0, false⟩, ⟨1, false⟩]) ∨
    (d.prgUnits = 2 ∧ slots = #v[⟨0, false⟩, ⟨1, false⟩, ⟨2, false⟩, ⟨3, false⟩]) := by
  unfold nrom at h
  split at h <;> cases h
  · exact .inl ⟨by assumption, rfl⟩
  · exact .inr ⟨by assumption, rfl⟩

theorem nrom_of_one {d : RomDescriptor} (h : d.prgUnits = 1) :
    nrom d = .ok #v[⟨0, false⟩, ⟨1, false⟩, ⟨0, false⟩, ⟨1, false⟩] := by
  simp only [nrom, h]

theorem nrom_of_two {d : RomDescriptor} (h : d.prgUnits = 2) :
    nrom d = .ok #v[⟨0, false⟩, ⟨1, false⟩, ⟨2, false⟩, ⟨3, false⟩] := by
  simp only [nrom, h]

theorem nrom_of_other {d : RomDescriptor} (h1 : d.prgUnits ≠ 1) (h2 : d.prgUnits ≠ 2) :
    nrom d = .err (.unsupportedPrgUnits d.prgUnits) := by
  unfold nrom
  split
  · contradiction
  · contradiction
  · rfl

theorem nrom_inRange : Selector.InRange nrom := by
  intro d slots h i
  rcases nrom_eq_ok h with ⟨hunits, rfl⟩ | ⟨hunits, rfl⟩ <;> rw [hunits] <;> revert i <;> decide

/-- The bank table and the image under NROM (R53). -/
theorem init_nrom_eq_machine {d : RomDescriptor} {ramInit sramInit : Memory} {pcOverride : Option Word} {ext : Bool}
    {s : State} (h : init d (some nrom) ramInit sramInit pcOverride ext = .machine s) : s.prg = d.prg ∧
    (d.prgUnits = 1 → s.bank =
      bankTable (.prgSlice 0 false) (.prgSlice 1 false) (.prgSlice 0 false) (.prgSlice 1 false)) ∧
    (d.prgUnits = 2 → s.bank =
      bankTable (.prgSlice 0 false) (.prgSlice 1 false) (.prgSlice 2 false) (.prgSlice 3 false)) := by
  obtain ⟨b4, b5, b6, b7, hcart, -, hs⟩ := init_eq_withCpu h
  cases hcart with
  | slots hslots =>
    rw [hs]
    refine ⟨rfl, fun hunits => ?_, fun hunits => ?_⟩
    · rw [nrom_of_one hunits] at hslots
      cases hslots
      rfl
    · rw [nrom_of_two hunits] at hslots
      cases hslots
      rfl

/-- A read of the cartridge window, by the slice each of its four banks holds (R47). -/
theorem State.read_window {s : State} {slice : Nat → Nat}
    (hbank : ∀ n (hn : n < 8), 4 ≤ n → s.bank[n] = .prgSlice (slice n) false) {addr : Word}
    (h : 0x8000 ≤ addr.toNat) :
    s.read addr = some (s.prg.read (slice (addr.toNat / 8192) * 8192 + addr.toNat % 8192)) :=
  have hindex : 4 ≤ addr.toNat / 8192 := by omega
  State.read_of_bankAt (hbank _ (bankIndex_lt addr) hindex)

/-- The cartridge window of a bank table is its last four entries, in order. -/
theorem bankTable_window {slot : Nat → BankEntry} {n : Nat} (hn : n < 8) (h4 : 4 ≤ n) :
    (bankTable (slot 4) (slot 5) (slot 6) (slot 7))[n] = slot n := by
  obtain rfl | rfl | rfl | rfl : n = 4 ∨ n = 5 ∨ n = 6 ∨ n = 7 := by omega
  · rfl
  · rfl
  · rfl
  · rfl

/-- Settles O22: bank `n` of the window holds slice `n % 2` of one unit and slice `n - 4` of two. -/
theorem nromFillsTheCartridgeWindow : Obligations.NromFillsTheCartridgeWindow := by
  unfold Obligations.NromFillsTheCartridgeWindow
  refine ⟨nrom_inRange, fun d ramInit sramInit pcOverride ext s h => ?_⟩
  obtain ⟨hprg, hone, htwo⟩ := init_nrom_eq_machine h
  refine ⟨fun hunits => ?_, fun hunits => ?_⟩
  · have hbank : ∀ n (hn : n < 8), 4 ≤ n → s.bank[n] = .prgSlice (n % 2) false := by
      rw [hone hunits]
      exact fun n => bankTable_window (slot := fun n => .prgSlice (n % 2) false)
    refine ⟨hbank 4 _ (by decide), hbank 5 _ (by decide), hbank 6 _ (by decide), hbank 7 _ (by decide),
      fun addr h => ?_⟩
    have hindex : addr.toNat / 8192 % 2 * 8192 + addr.toNat % 8192 = (addr.toNat - 0x8000) % 16384 := by omega
    rw [State.read_window (slice := (· % 2)) hbank h, hprg, hindex]
  · have hbank : ∀ n (hn : n < 8), 4 ≤ n → s.bank[n] = .prgSlice (n - 4) false := by
      rw [htwo hunits]
      exact fun n => bankTable_window (slot := fun n => .prgSlice (n - 4) false)
    refine ⟨hbank 4 _ (by decide), hbank 5 _ (by decide), hbank 6 _ (by decide), hbank 7 _ (by decide),
      fun addr h => ?_⟩
    have hindex : (addr.toNat / 8192 - 4) * 8192 + addr.toNat % 8192 = addr.toNat - 0x8000 := by omega
    rw [State.read_window (slice := (· - 4)) hbank h, hprg, hindex]

/-! ### When an initialisation fails -/

theorem init_of_selector_err {d : RomDescriptor} {sel : Selector} {reason : ConfigReason} (h : sel d = .err reason)
    (ramInit sramInit : Memory) (pcOverride : Option Word) (ext : Bool) :
    init d (some sel) ramInit sramInit pcOverride ext = .failed (.configurationError reason) := by
  rw [init, busInit, h]

theorem launch_of_mapper_zero {d : RomDescriptor} (h : d.mapperNumber = 0) (ramInit sramInit : Memory)
    (pcOverride : Option Word) (ext : Bool) :
    launch d ramInit sramInit pcOverride ext = init d (some nrom) ramInit sramInit pcOverride ext := by
  rw [launch, h]
  rfl

theorem selectorFor_of_ne_zero {n : Nat} (h : n ≠ 0) : selectorFor n = none := by
  cases n with
  | zero => contradiction
  | succ n => rfl

/-- With the reset vector readable `CpuInit` builds a machine (R302). -/
theorem cpuInit_of_vector {b : Bus} {lo hi : Byte} {ext : Bool}
    (hlo : (b.withCpu 0 ext).read Config.vecReset = some lo)
    (hhi : (b.withCpu 0 ext).read (Config.vecReset + 1) = some hi) (pcOverride : Option Word) :
    ∃ s, cpuInit b pcOverride ext = .machine s := by
  cases pcOverride with
  | some v => exact ⟨_, rfl⟩
  | none =>
    rw [cpuInit, memRead16_of_some hlo hhi]
    exact ⟨_, rfl⟩

/-- A selector's slots hold the reset vector, so an initialisation with one succeeds. -/
theorem init_of_selector_ok {d : RomDescriptor} {sel : Selector} {slots : Vector Slot 4} (h : sel d = .ok slots)
    (ramInit sramInit : Memory) (pcOverride : Option Word) (ext : Bool) :
    ∃ s, init d (some sel) ramInit sramInit pcOverride ext = .machine s := by
  rw [init, busInit, h]
  exact cpuInit_of_vector rfl rfl pcOverride

/-- Settles O24: NROM's answer decides with a selector, the reset vector without one. -/
theorem initialisationFailsExactlyAsStated : Obligations.InitialisationFailsExactlyAsStated := by
  unfold Obligations.InitialisationFailsExactlyAsStated
  refine fun d ramInit sramInit pcOverride ext v => ⟨fun h1 h2 => ?_, fun hmapper => ?_, fun hmapper hunits => ?_, rfl,
    _, rfl, rfl, rfl, rfl, rfl⟩
  · exact init_of_selector_err (nrom_of_other h1 h2) ramInit sramInit pcOverride ext
  · rw [launch, selectorFor_of_ne_zero hmapper]
  · rw [launch_of_mapper_zero hmapper]
    rcases hunits with hunits | hunits
    · exact init_of_selector_ok (nrom_of_one hunits) ramInit sramInit pcOverride ext
    · exact init_of_selector_ok (nrom_of_two hunits) ramInit sramInit pcOverride ext

end Sys2Proof.Machine

namespace Sys2Proof.Machine

open Sys2Proof.Claims

/-! SUPPORT. The addresses of the direct modes in numbers, the post-indexed mode, how an instruction faults on its
operand, and the signed reading of ADD and SUB. Then the statements about addressing and the ALU (R112 to R121, R133,
R147, R148). -/

/-! ### Addresses in numbers -/

theorem zext16_toNat (b : Byte) : (zext16 b).toNat = b.toNat := by
  rw [zext16, BitVec.toNat_setWidth]
  have := b.isLt
  omega

theorem sext16_toNat (b : Byte) : (sext16 b).toNat = if b.toNat < 128 then b.toNat else b.toNat + 0xFF00 := by
  have hb := b.isLt
  simp only [sext16, BitVec.toNat_signExtend, BitVec.toNat_setWidth, BitVec.msb_eq_decide, decide_eq_true_eq]
  split <;> split <;> omega

/-- Settles O25: each mode's resolver answers its sum, whose widths wrap it. -/
theorem directModesComputeTheirAddress : Obligations.DirectModesComputeTheirAddress := by
  unfold Obligations.DirectModesComputeTheirAddress
  intro s b a
  refine ⟨rfl, rfl, ⟨_, rfl, BitVec.sub_add_cancel _ _⟩, ⟨_, rfl, zext16_toNat b⟩, ⟨_, rfl, ?_⟩, ⟨_, rfl, ?_⟩,
    ⟨_, rfl, rfl⟩, ⟨_, rfl, ?_⟩, ⟨_, rfl, ?_⟩, ⟨_, rfl, ?_⟩⟩
  · rw [zext16_toNat, BitVec.toNat_add]
  · rw [zext16_toNat, BitVec.toNat_add]
  · rw [BitVec.toNat_add, zext16_toNat]
  · rw [BitVec.toNat_add, zext16_toNat]
  · rw [BitVec.toNat_add, sext16_toNat]

theorem resolve_izy_of_read {s : State} {lo hi b : Byte} (hl : s.read (zext16 b) = some lo)
    (hh : s.read (zext16 (b + 1)) = some hi) : resolve (.izy b) s = .ok (some (wordOf hi lo + zext16 s.y)) s := by
  rw [resolve_izy, M.bind_ok (zeroPagePointer_of_read hl hh), look_bind_apply, M.pure_apply]

/-- Settles O27: the pointer is read in the zero page, and the sum with Y is one of words. -/
theorem postIndexedModeAddsYToThePointer : Obligations.PostIndexedModeAddsYToThePointer := by
  unfold Obligations.PostIndexedModeAddsYToThePointer
  intro s b lo hi hl hh
  rw [← zext16_of_toNat rfl] at hl
  have hnext : (b + 1).toNat = (b.toNat + 1) % 256 := BitVec.toNat_add b 1
  rw [← zext16_of_toNat hnext] at hh
  exact ⟨_, resolve_izy_of_read hl hh, by rw [BitVec.toNat_add, wordOf_toNat, zext16_toNat]⟩

/-- Settles O28: an immediate operand is the instruction's own byte, every other one is resolved and then read. -/
theorem operandsReadTheByteAtTheirAddress : Obligations.OperandsReadTheByteAtTheirAddress := by
  unfold Obligations.OperandsReadTheByteAtTheirAddress
  exact fun o s b v ea => ⟨rfl, fun ho hr hv => loadOperand_of_read ho hr (memRead_of_some hv)⟩

/-! ### Faults on an operand -/

section
variable {m : Mnemonic} {o : Operand} {s t : State} {r : FaultRecord} {ea : Word}

theorem loadOperand_of_resolve_error (h : resolve o s = .error r t) : loadOperand o s = .error r t := by
  cases o with
  | imm b => cases h
  | _ => exact M.bind_error h

theorem loadOperand_of_read_none (ho : o.mode ≠ .immediate) (hr : resolve o s = .ok (some ea) s)
    (h : s.read ea = none) : loadOperand o s = .error (.addressingError ea .read) s := by
  cases o with
  | imm b => exact absurd rfl ho
  | _ => exact (M.bind_ok hr).trans (memRead_of_none h)

/-- A reader begins with its operand's read, so a fault of the read ends it. -/
theorem handler_of_load_error (hm : m ∈ readers) (h : loadOperand o s = .error r t) : handler m o s = .error r t := by
  cases m with
  | LDA | LDX | LDY | LAX | ADC | SBC | AND | ORA | EOR | CMP | CPX | CPY | BIT => exact M.bind_error h
  | _ => exact absurd hm (by decide)

/-- Every other instruction with a pointer begins with resolving it. -/
theorem handler_of_resolve_error (hm : m ∈ stores ++ modifiers ++ [.JMP]) (h : resolve o s = .error r t) :
    handler m o s = .error r t := by
  cases m with
  | STA | STX | STY | SAX | INC | DEC | SLO | RLA | SRE | RRA | DCP | ISB | JMP => exact M.bind_error h
  | _ => exact absurd hm (by decide)

/-- A read-modify-write reads its byte next. -/
theorem handler_of_read_none (hm : m ∈ modifiers ++ shifts) (hr : resolve o s = .ok (some ea) s)
    (h : s.read ea = none) : handler m o s = .error (.addressingError ea .read) s := by
  cases m with
  | INC | DEC | SLO | RLA | SRE | RRA | DCP | ISB | ASL | LSR | ROL | ROR =>
    exact (M.bind_ok hr).trans (M.bind_error (memRead_of_none h))
  | _ => exact absurd hm (by decide)

/-- A store writes next, without reading. -/
theorem handler_of_write_none (hm : m ∈ stores) (hr : resolve o s = .ok (some ea) s)
    (h : ∀ v, s.write ea v = none) : handler m o s = .error (.addressingError ea .write) s := by
  cases m with
  | STA | STX | STY | SAX => exact (M.bind_ok hr).trans (memWrite_of_none (h _))
  | _ => exact absurd hm (by decide)

end

/-- The mnemonics with a pointer mode read their operand, or resolve it first. -/
theorem mnemonic_of_pointer {i : Instr} (h : i.operand.mode ∉ directModes) :
    i.mnemonic ∈ readers ∨ i.mnemonic ∈ stores ++ modifiers ++ [.JMP] := by
  have hmode := mode_mem_modes i
  have hpointer : ∀ m : Mnemonic, (∀ d ∈ m.modes, d ∈ directModes) ∨ m ∈ readers ∨ m ∈ stores ++ modifiers ++ [.JMP] :=
    fun m => by cases m <;> decide
  exact (hpointer i.mnemonic).resolve_left fun hdirect => h (hdirect _ hmode)

theorem handler_of_pointer_error {i : Instr} {s t : State} {r : FaultRecord} (h : resolve i.operand s = .error r t) :
    handler i.mnemonic i.operand s = .error r t := by
  have hpointer : i.operand.mode ∉ directModes := fun hdirect => by
    obtain ⟨ea, hok⟩ := resolve_of_direct hdirect s
    rw [hok] at h
    cases h
  rcases mnemonic_of_pointer hpointer with hm | hm
  · exact handler_of_load_error hm (loadOperand_of_resolve_error h)
  · exact handler_of_resolve_error hm h

theorem State.write_eq_none_of_read {s : State} {a : Word} (h : s.read a = none) (v : Byte) : s.write a v = none := by
  have hl : s.locate a = none := by simpa [State.read] using h
  simp [State.write, hl]

/-- Settles O29: an instruction's first access is its pointer's, then its operand's read, or for a store its write. -/
theorem unassignedOperandsFault : Obligations.UnassignedOperandsFault := by
  unfold Obligations.UnassignedOperandsFault
  refine fun i s => ⟨fun a h => ⟨_, exec_of_handler_error (handler_of_pointer_error h)⟩,
    fun ea hr h => ⟨?_, fun hm => ?_⟩⟩
  · rintro (⟨hm, ho⟩ | hm | hm)
    · exact ⟨_, exec_of_handler_error (handler_of_load_error hm (loadOperand_of_read_none ho hr h))⟩
    · exact ⟨_, exec_of_handler_error (handler_of_read_none (List.mem_append_left _ hm) hr h)⟩
    · exact ⟨_, exec_of_handler_error (handler_of_read_none (List.mem_append_right _ hm) hr h)⟩
  · exact ⟨_, exec_of_handler_error (handler_of_write_none hm hr (State.write_eq_none_of_read h))⟩

/-! ### ADD and SUB -/

theorem xor_ones_toNat (m : Byte) : (m ^^^ 0xFF).toNat = 255 - m.toNat := by
  have hnot : m ^^^ 0xFF = ~~~m := BitVec.xor_allOnes
  rw [hnot, BitVec.toNat_not]

theorem xor_ones_msb (m : Byte) : (m ^^^ 0xFF).msb = !m.msb := by
  have hnot : m ^^^ 0xFF = ~~~m := BitVec.xor_allOnes
  rw [hnot, BitVec.msb_not]
  rfl

/-- The difference is the sum with the complement, mod 256. -/
theorem ofInt_sub_eq_ofNat_add (a m : Byte) (c : Bool) :
    BitVec.ofInt 8 (a.toNat - m.toNat - (1 - carryNat c)) =
      BitVec.ofNat 8 (a.toNat + (m ^^^ 0xFF).toNat + carryNat c) := by
  apply BitVec.eq_of_toNat_eq
  have hm := m.isLt
  have hc := carryNat_le_one c
  rw [BitVec.toNat_ofInt, BitVec.toNat_ofNat, xor_ones_toNat]
  omega

/-- Settles O31: the two results are one byte; a borrow is a missing carry; the sign of the complement is the other. -/
theorem subtractionIsAdditionOfTheComplement : Obligations.SubtractionIsAdditionOfTheComplement := by
  unfold Obligations.SubtractionIsAdditionOfTheComplement
  intro a m c
  have hm := m.isLt
  have hc := carryNat_le_one c
  have hcarry : (0 ≤ (a.toNat - m.toNat - (1 - carryNat c) : Int)) =
      (255 < a.toNat + (m ^^^ 0xFF).toNat + carryNat c) := by
    rw [xor_ones_toNat, eq_iff_iff]
    omega
  have hsign : (a.msb == (m ^^^ 0xFF).msb) = (a.msb != m.msb) := by
    rw [xor_ones_msb]
    cases a.msb <;> cases m.msb <;> rfl
  simp only [subF, addF, ofInt_sub_eq_ofNat_add, hcarry, hsign]

/-- The overflow test of a byte sum: with equal signs, another sign in the result. -/
theorem overflow_iff (x y : Byte) (c : Bool) :
    (x.msb == y.msb && (BitVec.ofNat 8 (x.toNat + y.toNat + carryNat c)).msb != x.msb) = true ↔
      x.toInt + y.toInt + carryNat c < -128 ∨ 127 < x.toInt + y.toInt + carryNat c := by
  have hx := x.isLt
  have hy := y.isLt
  have hc := carryNat_le_one c
  simp only [BitVec.msb_eq_decide, BitVec.toInt_eq_toNat_cond, BitVec.toNat_ofNat, Bool.and_eq_true, beq_iff_eq,
    bne_iff_ne, ne_eq, decide_eq_decide]
  split <;> split <;> omega

/-- Settles O30: of ADD directly, of SUB through the sum with the complement, whose signed value is `-1 - m`. -/
theorem overflowIsSignedOverflow : Obligations.OverflowIsSignedOverflow := by
  unfold Obligations.OverflowIsSignedOverflow
  refine fun a m c => ⟨overflow_iff a m c, ?_⟩
  have hnot : (m ^^^ 0xFF).toInt = -1 - m.toInt := by
    have hm := m.isLt
    rw [BitVec.toInt_eq_toNat_cond, BitVec.toInt_eq_toNat_cond, xor_ones_toNat]
    split <;> split <;> omega
  have hsum : a.toInt - m.toInt - (1 - carryNat c) = a.toInt + (m ^^^ 0xFF).toInt + carryNat c := by
    rw [hnot]
    omega
  rw [subtractionIsAdditionOfTheComplement a m c, hsum]
  exact overflow_iff a (m ^^^ 0xFF) c

/-! ### The packings of the status byte -/

theorem keepsFlags_pushImage (p : Byte) : KeepsFlags p (pushImage p) [.B, .R] := fun f hf => by
  rw [getFlag_pushImage, if_neg (by simpa using hf)]

theorem keepsFlags_pullImage (p : Byte) : KeepsFlags p (pullImage p) [.B, .R] := fun f hf => by
  obtain ⟨hB, hR⟩ : f ≠ .B ∧ f ≠ .R := by simpa using hf
  rw [getFlag_pullImage, if_neg hB, if_neg hR]

/-- Pulling what was pushed forces Break and Reserved whatever the push forced (R148). -/
theorem pullImage_pushImage (p : Byte) : pullImage (pushImage p) = pullImage p :=
  statusByte_ext fun f => by cases f <;> simp [getFlag_pullImage, getFlag_pushImage]

/-- Settles O32: flag by flag from the two images. -/
theorem statusImagesForceBreakAndReserved : Obligations.StatusImagesForceBreakAndReserved := by
  unfold Obligations.StatusImagesForceBreakAndReserved
  exact fun p => ⟨⟨getFlag_pushImage p .B, getFlag_pushImage p .R, keepsFlags_pushImage p⟩,
    ⟨getFlag_pullImage p .B, getFlag_pullImage p .R, keepsFlags_pullImage p⟩, pullImage_pushImage p⟩

end Sys2Proof.Machine

namespace Sys2Proof.Machine

open Sys2Proof.Claims

/-! SUPPORT. The results and flags of the remaining operations in the numbers of the statements, and the state each
operation ends in where its operand can be read or written. Then the statements that loads, stores, register operations,
logic, compares, increments, shifts and the undocumented read-modify-writes complete (R155 to R204, R250 to R257). -/

/-! ### Results and flags in numbers -/

theorem ofNat_toNat_add_one (b : Byte) : BitVec.ofNat 8 (b.toNat + 1) = b + 1 := by bv_omega

theorem ofNat_toNat_add_255 (b : Byte) : BitVec.ofNat 8 (b.toNat + 255) = b - 1 := by bv_omega

theorem zsOf_putZS (p r : Byte) : ZSOf (putZS p r) r :=
  zsOf_of_getFlag (getFlag_putZS p r .Z) (getFlag_putZS p r .S)

theorem zsOf_putLogic_passF (p r : Byte) : ZSOf (putLogic p (passF r)) r :=
  zsOf_of_getFlag (getFlag_putLogic p _ .Z) (getFlag_putLogic p _ .S)

/-- CMPF meets its rule (R134). -/
theorem compareF_comparesTo (r m p : Byte) : ComparesTo r m p (putCompare p (compareF r m)) :=
  ⟨getFlag_putCompare p _ .C, zsOf_of_getFlag (getFlag_putCompare p _ .Z) (getFlag_putCompare p _ .S),
    keepsFlags_putCompare p _⟩

/-! ### Loads, stores and register operations -/

section
variable {m : Mnemonic} {o : Operand} {s t : State} {v : Byte}

/-- A store of an instruction's byte at its address is all the instruction does (R158 to R160, R251). -/
theorem handler_of_stored {ea : Word} (hv : storedByte s m = some v) (hr : resolve o s = .ok (some ea) s)
    (hw : s.write ea v = some t) : handler m o s = .ok () t := by
  cases m with
  | STA | STX | STY | SAX => cases hv; exact (M.bind_ok hr).trans (memWrite_of_some hw)
  | _ => cases hv

/-- A transfer or a register step ends with its byte in its destination and Z and S of it (R161 to R165, R186 to
R189). -/
theorem handler_of_registerResult (h : registerResult s m = some (v, t)) :
    ∃ p', handler m o s = .ok () (t.setP p') ∧ ZSOf p' v ∧ KeepsFlags s.p p' [.Z, .S] := by
  simp only [registerResult, ofNat_toNat_add_one, ofNat_toNat_add_255] at h
  cases m with
  | TAX | TAY | TXA | TYA | TSX => cases h; exact ⟨_, rfl, zsOf_putZS s.p _, keepsFlags_putZS s.p _⟩
  | INX | INY | DEX | DEY => cases h; exact ⟨_, rfl, zsOf_putLogic_passF s.p _, keepsFlags_putLogic s.p _⟩
  | _ => cases h

end

/-- Settles O33: each load ends with its byte in its destination and Z and S of it. -/
theorem loadsCompleteAndSetZS : Obligations.LoadsCompleteAndSetZS := by
  unfold Obligations.LoadsCompleteAndSetZS
  intro i s v h
  exact ⟨putZS s.p v, zsOf_putZS s.p v, keepsFlags_putZS s.p v,
    fun hi => exec_of_handler_ok (u := ()) (hi ▸ opLda_ok_iff.mpr ⟨v, h, rfl⟩),
    fun hi => exec_of_handler_ok (u := ()) (hi ▸ opLdx_ok_iff.mpr ⟨v, h, rfl⟩),
    fun hi => exec_of_handler_ok (u := ()) (hi ▸ opLdy_ok_iff.mpr ⟨v, h, rfl⟩),
    fun hi => exec_of_handler_ok (u := ()) (hi ▸ opLax_ok_iff.mpr ⟨v, h, rfl⟩)⟩

/-- Settles O34: the instruction is the arbiter's store, which leaves every register and flag. -/
theorem storesCompleteAndWriteOneByte : Obligations.StoresCompleteAndWriteOneByte := by
  unfold Obligations.StoresCompleteAndWriteOneByte
  intro i s t ea v hv hr hw
  obtain ⟨hpc, ha, hx, hy, hsp, hp, -⟩ := State.write_fields hw
  exact ⟨exec_of_handler_ok (handler_of_stored hv hr hw), hp, ha, hx, hy, hsp, hpc⟩

/-- Settles O35: no transfer and no register step has an access that could fault; TXS writes SP only. -/
theorem registerOperationsComplete : Obligations.RegisterOperationsComplete := by
  unfold Obligations.RegisterOperationsComplete
  refine fun i s => ⟨fun v t h => ?_, fun hi => exec_of_handler_ok (u := ()) (hi ▸ opTxs_apply)⟩
  obtain ⟨p', hrun, hflags⟩ := handler_of_registerResult (o := i.operand) h
  exact ⟨p', exec_of_handler_ok hrun, hflags⟩

/-! ### Logic, compares, increments -/

section
variable {m : Mnemonic} {o : Operand} {s : State} {b r : Byte}

theorem handler_of_logicByte (h : logicByte s.a b m = some r) (hl : loadOperand o s = .ok b s) :
    handler m o s = .ok () ((s.setA r).setP (putLogic s.p (passF r))) := by
  cases m with
  | AND => cases h; exact opAnd_ok_iff.mpr ⟨b, hl, rfl⟩
  | ORA => cases h; exact opOra_ok_iff.mpr ⟨b, hl, rfl⟩
  | EOR => cases h; exact opEor_ok_iff.mpr ⟨b, hl, rfl⟩
  | _ => cases h

theorem handler_of_comparedRegister (h : comparedRegister s m = some r) (hl : loadOperand o s = .ok b s) :
    handler m o s = .ok () (s.setP (putCompare s.p (compareF r b))) := by
  cases m with
  | CMP => cases h; exact opCmp_ok_iff.mpr ⟨b, hl, rfl⟩
  | CPX => cases h; exact opCpx_ok_iff.mpr ⟨b, hl, rfl⟩
  | CPY => cases h; exact opCpy_ok_iff.mpr ⟨b, hl, rfl⟩
  | _ => cases h

end

/-- A byte that can be read can be written to: both need an assigned bank (R43, R44). -/
theorem State.write_of_read {s : State} {a : Word} {b : Byte} (h : s.read a = some b) (v : Byte) :
    ∃ t, s.write a v = some t := by
  rw [← Option.isSome_iff_exists, State.write_isSome, ← State.read_isSome, h]
  rfl

/-- Settles O37: A and the flags are what the logic function returns. -/
theorem logicInstructionsComplete : Obligations.LogicInstructionsComplete := by
  unfold Obligations.LogicInstructionsComplete
  exact fun i s m r h hl => ⟨_, exec_of_handler_ok (handler_of_logicByte h hl), zsOf_putLogic_passF s.p r,
    keepsFlags_putLogic s.p _⟩

/-- Settles O38: the flags are what CMPF returns, which takes no Carry. -/
theorem comparesComplete : Obligations.ComparesComplete := by
  unfold Obligations.ComparesComplete
  exact fun i s r m h hl => ⟨_, exec_of_handler_ok (handler_of_comparedRegister h hl), compareF_comparesTo r m s.p⟩

/-- A read-modify-write of one byte (R184, R185), where the byte can be read. -/
theorem exec_of_stepMemory {i : Instr} {s : State} {ea : Word} {m r : Byte} {f : Byte → LogicOut}
    (hi : handler i.mnemonic i.operand = stepMemory f i.operand) (hf : f m = passF r)
    (hr : resolve i.operand s = .ok (some ea) s) (hm : s.read ea = some m) :
    ∃ t, s.write ea r = some t ∧ exec i s = .next (t.setP (putLogic s.p (passF r))) := by
  obtain ⟨t, hw⟩ := State.write_of_read hm r
  refine ⟨t, hw, exec_of_handler_ok (u := ()) (hi ▸ stepMemory_ok_iff.mpr ⟨_, m, t, hr, memRead_of_some hm, ?_, ?_⟩)⟩
  · rw [hf]
    exact memWrite_of_some hw
  · rw [hf]

/-- Settles O40: both read their byte, store it stepped by one and set Z and S of it. -/
theorem incrementAndDecrementMemoryComplete : Obligations.IncrementAndDecrementMemoryComplete := by
  unfold Obligations.IncrementAndDecrementMemoryComplete
  intro i s ea m r hi hr hm
  obtain ⟨t, hw, hexec⟩ : ∃ t, s.write ea r = some t ∧ exec i s = .next (t.setP (putLogic s.p (passF r))) := by
    rcases hi with ⟨hi, rfl⟩ | ⟨hi, rfl⟩
    · exact exec_of_stepMemory (by rw [hi]; rfl) (by rw [ofNat_toNat_add_one]; rfl) hr hm
    · exact exec_of_stepMemory (by rw [hi]; rfl) (by rw [ofNat_toNat_add_255]; rfl) hr hm
  exact ⟨t, _, hw, hexec, zsOf_putLogic_passF s.p r, keepsFlags_putLogic s.p _⟩

/-! ### Shifts and rotates -/

theorem shiftLeft_one_eq (v : Byte) : v <<< 1 = BitVec.ofNat 8 (v.toNat * 2) := by
  apply BitVec.eq_of_toNat_eq
  rw [BitVec.toNat_shiftLeft, Nat.shiftLeft_eq, BitVec.toNat_ofNat]

theorem shiftRight_one_eq (v : Byte) : v >>> 1 = BitVec.ofNat 8 (v.toNat / 2) := by
  apply BitVec.eq_of_toNat_eq
  have hv := v.isLt
  rw [BitVec.toNat_ushiftRight, Nat.shiftRight_eq_div_pow, BitVec.toNat_ofNat]
  omega

/-- A shift left clears bit 0. -/
theorem shiftLeft_one_and_one (v : Byte) : v <<< 1 &&& 0x01 = 0 := by
  have hbit : (v <<< 1).getLsbD 0 = false := by rw [BitVec.getLsbD_shiftLeft]; rfl
  have hand := BitVec.and_twoPow (v <<< 1) 0
  rwa [hbit] at hand

/-- A shift right clears bit 7. -/
theorem shiftRight_one_and_top (v : Byte) : v >>> 1 &&& 0x80 = 0 := by
  have hbit : (v >>> 1).getLsbD 7 = false := by
    rw [BitVec.getLsbD_ushiftRight]
    exact BitVec.getLsbD_of_ge v (1 + 7) (by decide)
  have hand := BitVec.and_twoPow (v >>> 1) 7
  rwa [hbit] at hand

/-- The old Carry enters at bit 0, which the shift left clears. -/
theorem rotateLeft_eq (v : Byte) (c : Bool) :
    v <<< 1 ||| (if c then 0x01 else 0x00) = BitVec.ofNat 8 (v.toNat * 2 + carryNat c) := by
  have hdisjoint : v <<< 1 &&& (if c then 0x01 else 0x00) = 0 := by
    cases c
    · exact BitVec.and_zero
    · exact shiftLeft_one_and_one v
  rw [← BitVec.add_eq_or_of_and_eq_zero _ _ hdisjoint, shiftLeft_one_eq]
  cases c <;> simp [carryNat, BitVec.ofNat_add]

/-- The old Carry enters at bit 7, which the shift right clears. -/
theorem rotateRight_eq (v : Byte) (c : Bool) :
    v >>> 1 ||| (if c then 0x80 else 0x00) = BitVec.ofNat 8 (v.toNat / 2 + carryNat c * 128) := by
  have hdisjoint : v >>> 1 &&& (if c then 0x80 else 0x00) = 0 := by
    cases c
    · exact BitVec.and_zero
    · exact shiftRight_one_and_top v
  rw [← BitVec.add_eq_or_of_and_eq_zero _ _ hdisjoint, shiftRight_one_eq]
  cases c <;> simp [carryNat, BitVec.ofNat_add]

theorem getLsbD_seven_eq (v : Byte) : v.getLsbD 7 = decide (128 ≤ v.toNat) := BitVec.msb_eq_decide v

theorem getLsbD_zero_eq (v : Byte) : v.getLsbD 0 = decide (v.toNat % 2 = 1) := by
  rw [BitVec.getLsbD, Nat.testBit_zero]

/-- The ALU function of a shift or rotate (R201 to R204). -/
def shiftF : Mnemonic → Byte → Bool → ShiftOut
  | .LSR, v, _ => lsrF v
  | .ROL, v, c => rolF v c
  | .ROR, v, c => rorF v c
  | _, v, _ => aslF v

/-- A shift or rotate meets its rule (R138 to R141). -/
theorem shiftF_of_shifted {m : Mnemonic} {v r : Byte} {c k : Bool} (h : shifted v c m = some (r, k)) :
    shiftF m v c = ⟨r, k, r == 0, r.msb⟩ := by
  cases m with
  | ASL => cases h; simp only [shiftF, aslF, shiftLeft_one_eq, getLsbD_seven_eq]
  | LSR => cases h; simp only [shiftF, lsrF, shiftRight_one_eq, getLsbD_zero_eq]
  | ROL => cases h; simp only [shiftF, rolF, rotateLeft_eq, getLsbD_seven_eq]
  | ROR => cases h; simp only [shiftF, rorF, rotateRight_eq, getLsbD_zero_eq]
  | _ => cases h

/-- The flags of a shift or rotate: the bit shifted out, and Z and S of the result (R138 to R141). -/
theorem putShift_meets (p r : Byte) (c : Bool) :
    getFlag (putShift p ⟨r, c, r == 0, r.msb⟩) .C = c ∧ ZSOf (putShift p ⟨r, c, r == 0, r.msb⟩) r ∧
      KeepsFlags p (putShift p ⟨r, c, r == 0, r.msb⟩) [.C, .Z, .S] :=
  ⟨getFlag_putShift p _ .C, zsOf_of_getFlag (getFlag_putShift p _ .Z) (getFlag_putShift p _ .S),
    keepsFlags_putShift p _⟩

theorem handler_eq_shiftOperand {m : Mnemonic} {v r : Byte} {c k : Bool} (h : shifted v c m = some (r, k))
    (o : Operand) : handler m o = shiftOperand (shiftF m) o := by
  cases m with
  | ASL | LSR | ROL | ROR => rfl
  | _ => cases h

/-- Settles O41: the operand is A or the byte at the address, and the result goes back where it came from. -/
theorem shiftsAndRotatesComplete : Obligations.ShiftsAndRotatesComplete := by
  unfold Obligations.ShiftsAndRotatesComplete
  intro i s v r c h
  have hout := shiftF_of_shifted h
  have hrun {ea : Option Word} {t : State} (hr : resolve i.operand s = .ok ea s) (hv : readEa ea s = .ok v s)
      (hw : writeEa ea r s = .ok () t) : exec i s = .next (t.setP (putShift s.p ⟨r, c, r == 0, r.msb⟩)) := by
    refine exec_of_handler_ok (u := ()) ?_
    rw [handler_eq_shiftOperand h]
    exact shiftOperand_ok_iff.mpr ⟨ea, v, t, hr, hv, by rw [hout]; exact hw, by rw [hout]⟩
  obtain ⟨hC, hZS, hkept⟩ := putShift_meets s.p r c
  refine ⟨_, hC, hZS, hkept, fun hacc hv => ?_, fun ea hr hv => ?_⟩
  · subst hv
    exact hrun (ea := none) (by rw [hacc]; rfl) rfl rfl
  · obtain ⟨t, hw⟩ := State.write_of_read hv r
    exact ⟨t, hw, hrun hr (memRead_of_some hv) (memWrite_of_some hw)⟩

/-! ### Undocumented read-modify-writes -/

section
variable {m shift logic : Mnemonic} {o : Operand} {s : State} {ea : Word} {v b r : Byte} {c : Bool}

/-- SLO, RLA and SRE: a shift of the byte at the address, then a logic function of A and what was stored (R252 to
R254). -/
theorem handler_of_shift_logic
    (h : (m, shift, logic) ∈ [(Mnemonic.SLO, Mnemonic.ASL, Mnemonic.ORA), (.RLA, .ROL, .AND), (.SRE, .LSR, .EOR)])
    (hb : shifted v (s.flag .C) shift = some (b, c)) (hl : logicByte s.a b logic = some r)
    (hr : resolve o s = .ok (some ea) s) (hv : s.read ea = some v) :
    ∃ t, s.write ea b = some t ∧
      handler m o s = .ok () ((t.setA r).setP (putLogic (putFlag s.p .C c) (passF r))) := by
  obtain ⟨t, hw⟩ := State.write_of_read hv b
  obtain ⟨-, ha, -⟩ := State.write_fields hw
  have hread : readEa (some ea) s = .ok v s := memRead_of_some hv
  have hwrite : writeEa (some ea) b s = .ok () t := memWrite_of_some hw
  have hout := shiftF_of_shifted hb
  simp only [List.mem_cons, Prod.mk.injEq, List.not_mem_nil, or_false] at h
  refine ⟨t, hw, ?_⟩
  rcases h with ⟨rfl, rfl, rfl⟩ | ⟨rfl, rfl, rfl⟩ | ⟨rfl, rfl, rfl⟩ <;> cases hl <;> simp only [shiftF] at hout
  · exact opSlo_ok_iff.mpr ⟨_, v, t, hr, hread, by rw [hout]; exact hwrite, by rw [hout, ha]; rfl⟩
  · exact opRla_ok_iff.mpr ⟨_, v, t, hr, hread, by rw [hout]; exact hwrite, by rw [hout, ha]; rfl⟩
  · exact opSre_ok_iff.mpr ⟨_, v, t, hr, hread, by rw [hout]; exact hwrite, by rw [hout, ha]; rfl⟩

/-- The flags of a logic function after a shift: Z and S of the result, C the shift's. -/
theorem putLogic_putFlag_meets (p r : Byte) (c : Bool) :
    getFlag (putLogic (putFlag p .C c) (passF r)) .C = c ∧ ZSOf (putLogic (putFlag p .C c) (passF r)) r ∧
      KeepsFlags p (putLogic (putFlag p .C c) (passF r)) [.C, .Z, .S] := by
  refine ⟨?_, zsOf_putLogic_passF _ r, ?_⟩
  · rw [getFlag_putLogic]
    exact getFlag_putFlag_same p .C c
  · exact keepsFlags_putFlag (keepsFlags_putFlag (keepsFlags_putFlag (keepsFlags_refl p) .C c) .Z _) .S _

end

section
variable {i : Instr} {s t : State} {ea : Word} {v b : Byte} {c : Bool}

theorem exec_rra_of_write (hi : i.mnemonic = .RRA) (hb : shifted v (s.flag .C) .ROR = some (b, c))
    (hr : resolve i.operand s = .ok (some ea) s) (hv : s.read ea = some v) (hw : s.write ea b = some t) :
    exec i s = .next ((t.setA (addF s.a b c).r).setP (putArith s.p (addF s.a b c))) := by
  obtain ⟨-, ha, -, -, -, hp, -⟩ := State.write_fields hw
  have hout : rorF v (s.flag .C) = _ := shiftF_of_shifted hb
  refine exec_of_handler_ok (u := ()) (hi ▸ opRra_ok_iff.mpr ⟨_, v, t, hr, memRead_of_some hv, ?_, ?_⟩)
  · rw [hout]
    exact memWrite_of_some hw
  · rw [hout, ha, hp]

theorem exec_dcp_of_write (hi : i.mnemonic = .DCP) (hr : resolve i.operand s = .ok (some ea) s)
    (hv : s.read ea = some v) (hw : s.write ea (v - 1) = some t) :
    exec i s = .next (t.setP (putCompare s.p (compareF s.a (v - 1)))) := by
  obtain ⟨-, ha, -, -, -, hp, -⟩ := State.write_fields hw
  refine exec_of_handler_ok (u := ()) (hi ▸ opDcp_ok_iff.mpr ⟨_, v, t, hr, memRead_of_some hv, memWrite_of_some hw, ?_⟩)
  rw [ha, hp]

theorem exec_isb_of_write (hi : i.mnemonic = .ISB) (hr : resolve i.operand s = .ok (some ea) s)
    (hv : s.read ea = some v) (hw : s.write ea (v + 1) = some t) :
    exec i s = .next ((t.setA (subF s.a (v + 1) (s.flag .C)).r).setP
      (putArith s.p (subF s.a (v + 1) (s.flag .C)))) := by
  obtain ⟨-, ha, -, -, -, hp, -⟩ := State.write_fields hw
  refine exec_of_handler_ok (u := ()) (hi ▸ opIsb_ok_iff.mpr ⟨_, v, t, hr, memRead_of_some hv, memWrite_of_some hw, ?_⟩)
  rw [State.flag_eq, State.flag_eq, ha, hp]

end

/-- Settles O53: the byte stored is the one the second half uses, and a store leaves A and the flags for it. -/
theorem readModifyWriteArithmeticCompletes : Obligations.ReadModifyWriteArithmeticCompletes := by
  unfold Obligations.ReadModifyWriteArithmeticCompletes
  intro i s ea v hr hv
  refine ⟨fun shift logic h b c r hb hl => ?_, fun hi b c hb => ?_, fun hi => ?_, fun hi => ?_⟩
  · obtain ⟨t, hw, hrun⟩ := handler_of_shift_logic h hb hl hr hv
    exact ⟨t, _, hw, exec_of_handler_ok hrun, putLogic_putFlag_meets s.p r c⟩
  · obtain ⟨t, hw⟩ := State.write_of_read hv b
    exact ⟨t, _, _, hw, exec_rra_of_write hi hb hr hv hw, addF_addsTo s.a b c s.p⟩
  · obtain ⟨t, hw⟩ := State.write_of_read hv (v - 1)
    exact ⟨t, _, hw, exec_dcp_of_write hi hr hv hw, compareF_comparesTo s.a (v - 1) s.p⟩
  · obtain ⟨t, hw⟩ := State.write_of_read hv (v + 1)
    exact ⟨t, _, _, hw, exec_isb_of_write hi hr hv hw, subF_subtractsTo s.a (v + 1) (s.flag .C) s.p⟩

end Sys2Proof.Machine

namespace Sys2Proof.Machine

open Sys2Proof.Claims

/-! SUPPORT. Words pulled from system RAM, the entry through a vector with the stack in system RAM, and reads of the
cartridge window after a push. Then the statements about branches, the stack, BRK and RTI, the flag instructions, and
the stack round trips (R17, R210 to R223, R230 to R240). -/

/-! ### Branches and flag instructions -/

theorem handler_eq_branchIf {m : Mnemonic} {f : Flag} {v : Bool} (h : branchTest m = some (f, v)) :
    m.modes = [.relative] ∧ ∀ o, handler m o = branchIf f v o := by
  cases m with
  | BCC | BCS | BEQ | BNE | BMI | BPL | BVC | BVS => cases h; exact ⟨rfl, fun _ => rfl⟩
  | _ => cases h

theorem operand_of_relative {o : Operand} (h : o.mode = .relative) : ∃ off, o = .rel off := by
  cases o with
  | rel off => exact ⟨off, rfl⟩
  | _ => cases h

/-- Settles O42: a branch's operand is an offset, so its target is found without an access. -/
theorem branchesComplete : Obligations.BranchesComplete := by
  unfold Obligations.BranchesComplete
  intro i s f v h
  obtain ⟨hmodes, hrun⟩ := handler_eq_branchIf h
  have hmode := mode_mem_modes i
  rw [hmodes, List.mem_singleton] at hmode
  obtain ⟨off, ho⟩ := operand_of_relative hmode
  refine ⟨off, ho, exec_of_handler_ok (u := ()) ?_⟩
  rw [hrun, ho]
  exact branchIf_ok_iff.mpr ⟨_, resolve_rel s off, rfl⟩

theorem handler_eq_setFlag {m : Mnemonic} {f : Flag} {v : Bool} (h : flagWrite m = some (f, v)) (o : Operand) :
    handler m o = setFlag f v := by
  cases m with
  | CLC | SEC | CLI | SEI | CLD | SED | CLV => cases h; rfl
  | _ => cases h

/-- Settles O51: one write of one flag. -/
theorem flagInstructionsComplete : Obligations.FlagInstructionsComplete := by
  unfold Obligations.FlagInstructionsComplete
  intro i s f v h
  exact ⟨putFlag s.p f v, exec_of_handler_ok (by rw [handler_eq_setFlag h, setFlag_apply]),
    getFlag_putFlag_same s.p f v, keepsFlags_putFlag (keepsFlags_refl s.p) f v⟩

/-! ### Pushes and pulls in system RAM -/

theorem add_one_add_one (b : Byte) : b + 1 + 1 = b + 2 := by bv_omega

theorem popWord_of_sysRam {s : State} (h : s.bank[0] = .sysRam) :
    popWord s = .ok (wordOf (s.ram.read (256 + (s.sp + 2).toNat)) (s.ram.read (256 + (s.sp + 1).toNat)))
      (s.setSp (s.sp + 2)) := by
  rw [popWord_of_read (State.read_stackAddr h _) (State.read_stackAddr h _), add_one_add_one]

/-- Settles O49: one push each. -/
theorem pushesComplete : Obligations.PushesComplete := by
  unfold Obligations.PushesComplete
  exact fun s h => ⟨exec_of_handler_ok (push_of_sysRam h s.a), exec_of_handler_ok (push_of_sysRam h (pushImage s.p))⟩

/-- Settles O50: one pull each. -/
theorem pullsComplete : Obligations.PullsComplete := by
  unfold Obligations.PullsComplete
  rintro s v h rfl
  have hread := State.read_stackAddr h (s.sp + 1)
  exact ⟨⟨_, exec_of_handler_ok (u := ()) (opPla_ok_iff.mpr ⟨_, hread, rfl⟩), zsOf_putZS s.p _, keepsFlags_putZS s.p _⟩,
    exec_of_handler_ok (u := ()) (opPlp_ok_iff.mpr ⟨_, hread, rfl⟩)⟩

/-- Settles O45: two bytes pulled from system RAM, the sum with 1 in PC. -/
theorem returnFromSubroutineCompletes : Obligations.ReturnFromSubroutineCompletes := by
  unfold Obligations.ReturnFromSubroutineCompletes
  exact fun s h => exec_of_handler_ok (u := ()) (opRts_ok_iff.mpr ⟨_, _, popWord_of_sysRam h, rfl⟩)

/-- Settles O47: the status byte, then two bytes of PC, pulled from system RAM. -/
theorem returnFromInterruptCompletes : Obligations.ReturnFromInterruptCompletes := by
  unfold Obligations.ReturnFromInterruptCompletes
  intro s h
  have hsp : s.sp + 1 + 1 + 1 = s.sp + 3 := by bv_omega
  have hread := State.read_stackAddr h
  refine exec_of_handler_ok (u := ()) (returnFromVector_ok_iff.mpr ⟨_, _, _, hread _, hread _, hread _, ?_⟩)
  rw [hsp, add_one_add_one]
  rfl

/-! ### The entry through a vector -/

/-- System RAM after the push of a word (R58). -/
def State.ramWithWord (s : State) (w : Word) : Memory :=
  (s.ram.write (256 + s.sp.toNat) (hiByte w)).write (256 + (s.sp - 1).toNat) (loByte w)

/-- The state in which an entry through a vector reads its vector: a word and the status byte pushed, I set (R222). -/
def State.entered (s : State) (ret : Word) : State :=
  ((s.setRam ((s.ramWithWord ret).write (256 + (s.sp - 2).toNat) (pushImage s.p))).setSp (s.sp - 3)).setP (s.p ||| 0x04)

/-- With the stack in system RAM an entry pushes its three bytes, sets I and goes to the vector (R278). -/
theorem enterVector_of_sysRam {s : State} (h : s.bank[0] = .sysRam) (ret vec : Word) :
    enterVector ret vec s = (memRead16 vec (vec + 1) >>= setPC) (s.entered ret) := by
  have hsp : s.sp - 2 - 1 = s.sp - 3 := by bv_omega
  have hword : pushWord ret s = .ok () ((s.setRam (s.ramWithWord ret)).setSp (s.sp - 2)) := pushWord_of_sysRam h ret
  have hstatus := push_of_sysRam (s := (s.setRam (s.ramWithWord ret)).setSp (s.sp - 2)) h (pushImage s.p)
  rw [enterVector, M.bind_ok hword, look_bind_apply, State.setSp_p, State.setRam_p, M.bind_ok hstatus, State.setSp_sp,
    hsp, M.bind_ok (setFlag_apply ..)]
  rfl

/-- Under a legal bank table a change of system RAM is not seen in the cartridge window (R41, R46, R47). -/
theorem State.read_setRam_of_window {s : State} (h : s.legalBanks = true) {addr : Word} (ha : 0x8000 ≤ addr.toNat)
    (m : Memory) : (s.setRam m).read addr = s.read addr := by
  have hindex : 4 ≤ bankIndex addr := by
    simp only [bankIndex, Config.bankSize]
    omega
  have hlegal : (s.bankAt addr).legalCartridge s.prgUnits = true := by
    rcases State.bankAt_legal h addr with ⟨hi, -⟩ | ⟨hi, -⟩ | ⟨hi, -⟩ | ⟨-, hlegal⟩
    · omega
    · omega
    · omega
    · exact hlegal
  cases hb : s.bankAt addr with
  | sysRam | saveRam => rw [hb] at hlegal; cases hlegal
  | unassigned | prgSlice => rw [State.read_of_bankAt hb, State.read_of_bankAt (s := s.setRam m) hb]; rfl

theorem State.entered_read_of_window {s : State} (h : s.legalBanks = true) {addr : Word} (ha : 0x8000 ≤ addr.toNat)
    (ret : Word) : (s.entered ret).read addr = s.read addr :=
  State.read_setRam_of_window h ha _

/-- Settles O46: the vector lies in the cartridge window, so it reads after the pushes as it did before. -/
theorem breakEntersThroughTheVector : Obligations.BreakEntersThroughTheVector := by
  unfold Obligations.BreakEntersThroughTheVector
  intro s hlegal
  obtain ⟨h0, -⟩ := State.legalBanks_iff.mp hlegal
  have hrun : handler Instr.brk.mnemonic Instr.brk.operand s = _ := enterVector_of_sysRam h0 (s.pc + 1) Config.vecIrq
  refine ⟨fun lo hi hlo hhi => ?_, fun h7 => ?_⟩
  · rw [← State.entered_read_of_window hlegal (by decide) (s.pc + 1)] at hlo hhi
    exact exec_of_handler_ok (hrun.trans (M.bind_ok (memRead16_of_some hlo hhi)))
  · have hnone : s.read 0xFFFE = none := State.read_of_unassigned h7
    rw [← State.entered_read_of_window hlegal (by decide) (s.pc + 1)] at hnone
    exact ⟨_, exec_of_handler_error (hrun.trans (M.bind_error (memRead16_of_low_none hnone)))⟩

/-! ### Round trips through the stack -/

theorem stackSlot_ne {a b : Byte} (h : a ≠ b) : 256 + a.toNat ≠ 256 + b.toNat := fun heq =>
  h (BitVec.eq_of_toNat_eq (Nat.add_left_cancel heq))

theorem State.ramWithWord_read_high (s : State) (w : Word) : (s.ramWithWord w).read (256 + s.sp.toNat) = hiByte w := by
  rw [State.ramWithWord, Memory.read_write_other _ _ (stackSlot_ne (by bv_omega)), Memory.read_write_same]

theorem State.ramWithWord_read_low (s : State) (w : Word) :
    (s.ramWithWord w).read (256 + (s.sp - 1).toNat) = loByte w :=
  Memory.read_write_same _ _ _

section
variable {s : State}

theorem exec_pha_pla (h : s.bank[0] = .sysRam) (w : Byte) :
    ∃ t u, exec .pha s = .next t ∧ exec .pla (t.setA w) = .next u ∧ u.a = s.a ∧ u.sp = s.sp := by
  obtain ⟨hpha, -⟩ := pushesComplete s h
  obtain ⟨⟨p', hpla, -⟩, -⟩ := pullsComplete
    (((s.setRam (s.ram.write (256 + s.sp.toNat) s.a)).setSp (s.sp - 1)).setA w) _ h rfl
  refine ⟨_, _, hpha, hpla, ?_, BitVec.sub_add_cancel s.sp 1⟩
  simp only [State.setP_a, State.setA_a, State.setA_ram, State.setA_sp, State.setSp_ram, State.setSp_sp,
    State.setRam_ram, BitVec.sub_add_cancel, Memory.read_write_same]

/-- The flags a pull of a pushed status byte leaves (R148). -/
theorem pullImage_pushImage_meets (p : Byte) :
    getFlag (pullImage (pushImage p)) .B = false ∧ getFlag (pullImage (pushImage p)) .R = true ∧
      KeepsFlags p (pullImage (pushImage p)) [.B, .R] := by
  obtain ⟨-, hpull, -⟩ := statusImagesForceBreakAndReserved p
  rw [pullImage_pushImage]
  exact hpull

theorem exec_php_plp (h : s.bank[0] = .sysRam) (w : Byte) :
    ∃ t u, exec .php s = .next t ∧ exec .plp (t.setP w) = .next u ∧ u.sp = s.sp ∧ u.p = pullImage (pushImage s.p) := by
  obtain ⟨-, hphp⟩ := pushesComplete s h
  obtain ⟨-, hplp⟩ := pullsComplete
    (((s.setRam (s.ram.write (256 + s.sp.toNat) (pushImage s.p))).setSp (s.sp - 1)).setP w) (pushImage s.p) h
    (by simp only [State.setP_ram, State.setP_sp, State.setSp_ram, State.setSp_sp, State.setRam_ram,
      BitVec.sub_add_cancel, Memory.read_write_same])
  exact ⟨_, _, hphp, hplp, BitVec.sub_add_cancel s.sp 1, rfl⟩

theorem exec_jsr_rts (h : s.bank[0] = .sysRam) (a : Word) :
    ∃ t u, exec (.jsr a) s = .next t ∧ exec .rts t = .next u ∧ u.pc = s.pc ∧ u.sp = s.sp := by
  have hrts := returnFromSubroutineCompletes
    (((s.setRam (s.ramWithWord (s.pc - 1))).setSp (s.sp - 2)).setPc a) h
  have hlow : s.sp - 2 + 1 = s.sp - 1 := by bv_omega
  refine ⟨_, _, jumpToSubroutineCompletes s a h, hrts, ?_, BitVec.sub_add_cancel s.sp 2⟩
  simp only [State.setPc_pc, State.setPc_ram, State.setPc_sp, State.setSp_ram, State.setSp_sp, State.setRam_ram,
    BitVec.sub_add_cancel, hlow, State.ramWithWord_read_high, State.ramWithWord_read_low, wordOf_hi_lo]

/-- RTI after an entry comes back with the status byte and the return address that were pushed. -/
theorem exec_rti_entered (h : s.bank[0] = .sysRam) (ret pc : Word) : ∃ u,
    exec .rti ((s.entered ret).setPc pc) = .next u ∧ u.pc = ret ∧ u.sp = s.sp ∧ u.p = pullImage (pushImage s.p) := by
  have hstatus : s.sp - 3 + 1 = s.sp - 2 := by bv_omega
  have hlow : s.sp - 3 + 2 = s.sp - 1 := by bv_omega
  have hother : ∀ b, b ≠ s.sp - 2 → ((s.ramWithWord ret).write (256 + (s.sp - 2).toNat) (pushImage s.p)).read
      (256 + b.toNat) = (s.ramWithWord ret).read (256 + b.toNat) :=
    fun b hb => Memory.read_write_other _ _ (stackSlot_ne hb)
  refine ⟨_, returnFromInterruptCompletes ((s.entered ret).setPc pc) h, ?_, BitVec.sub_add_cancel s.sp 3, ?_⟩
  · simp only [State.entered, State.setPc_pc, State.setPc_ram, State.setPc_sp, State.setP_ram, State.setP_sp,
      State.setSp_ram, State.setSp_sp, State.setRam_ram, BitVec.sub_add_cancel, hlow]
    rw [hother _ (by bv_omega), hother _ (by bv_omega), State.ramWithWord_read_high, State.ramWithWord_read_low,
      wordOf_hi_lo]
  · simp only [State.entered, State.setPc_p, State.setPc_ram, State.setPc_sp, State.setP_p, State.setP_ram,
      State.setP_sp, State.setSp_ram, State.setSp_sp, State.setRam_ram, hstatus, Memory.read_write_same]
    rfl

theorem State.read_of_assigned {addr : Word} (h : s.bankAt addr ≠ .unassigned) : ∃ v, s.read addr = some v := by
  rw [← Option.isSome_iff_exists, State.read_isSome, Option.isSome_iff_ne_none, ne_eq, State.locate_eq_none_iff]
  exact h

theorem exec_brk_rti (hlegal : s.legalBanks = true) (hcart : cartridgeAssigned s) : ∃ t u, exec .brk s = .next t ∧
    exec .rti t = .next u ∧ u.pc = s.pc + 1 ∧ u.sp = s.sp ∧ u.p = pullImage (pushImage s.p) := by
  obtain ⟨h0, -⟩ := State.legalBanks_iff.mp hlegal
  obtain ⟨-, -, -, h7⟩ := hcart
  obtain ⟨lo, hlo⟩ := State.read_of_assigned (s := s) (addr := 0xFFFE) h7
  obtain ⟨hi, hhi⟩ := State.read_of_assigned (s := s) (addr := 0xFFFF) h7
  obtain ⟨hbrk, -⟩ := breakEntersThroughTheVector s hlegal
  obtain ⟨u, hrti, hu⟩ := exec_rti_entered h0 (s.pc + 1) (wordOf hi lo)
  exact ⟨_, u, hbrk lo hi hlo hhi, hrti, hu⟩

end

/-- Settles O60: a pull reads the slot the push wrote, which nothing between them stores to. -/
theorem stackRoundTrips : Obligations.StackRoundTrips := by
  unfold Obligations.StackRoundTrips
  intro s w a hlegal
  obtain ⟨h0, -⟩ := State.legalBanks_iff.mp hlegal
  have hflags {u : State} (hp : u.p = pullImage (pushImage s.p)) :
      u.flag .B = false ∧ u.flag .R = true ∧ KeepsFlags s.p u.p [.B, .R] := by
    rw [State.flag_eq, State.flag_eq, hp]
    exact pullImage_pushImage_meets s.p
  refine ⟨exec_pha_pla h0 w, ?_, exec_jsr_rts h0 a, fun hcart => ?_⟩
  · obtain ⟨t, u, hphp, hplp, hsp, hp⟩ := exec_php_plp h0 w
    exact ⟨t, u, hphp, hplp, hsp, hflags hp⟩
  · obtain ⟨t, u, hbrk, hrti, hpc, hsp, hp⟩ := exec_brk_rti hlegal hcart
    exact ⟨t, u, hbrk, hrti, hpc, hsp, hflags hp⟩

end Sys2Proof.Machine

namespace Sys2Proof.Machine

open Sys2Proof.Claims

/-! SUPPORT. One more walk through the operations, for a property of statement sequences (Laws/Respects.lean and the
walk of `CoversWrites` are about a relation of states): it serves a comparison of two runs as well as frames of memory
and of A. Then the five statements about what an instruction leaves and what it does not look at (R6, R17, R24, R25,
R37). -/

/-! ### Flags kept on both sides -/

/-- Writing the same flag of two status bytes leaves them alike outside the same list. -/
theorem keepsFlags_putFlag_congr {p q : Byte} {differ : List Flag} (h : KeepsFlags p q differ) (f : Flag) (v : Bool) :
    KeepsFlags (putFlag p f v) (putFlag q f v) differ := fun g hg => by
  rw [getFlag_putFlag, getFlag_putFlag, h g hg]

/-- A function of the status byte that takes alike bytes to alike bytes. -/
def FlagwiseIn (k : Byte → Byte) : Prop := ∀ p q differ, KeepsFlags p q differ → KeepsFlags (k p) (k q) differ

theorem FlagwiseIn.id : FlagwiseIn fun p => p := fun _ _ _ h => h

theorem FlagwiseIn.const (v : Byte) : FlagwiseIn fun _ => v := fun _ _ _ _ _ _ => rfl

theorem FlagwiseIn.putFlag {k : Byte → Byte} (hk : FlagwiseIn k) (f : Flag) (v : Bool) :
    FlagwiseIn fun p => Machine.putFlag (k p) f v := fun p q differ h => keepsFlags_putFlag_congr (hk p q differ h) f v

theorem FlagwiseIn.putZS (r : Byte) : FlagwiseIn fun p => Machine.putZS p r := (FlagwiseIn.id.putFlag _ _).putFlag _ _

theorem FlagwiseIn.putLogic (o : LogicOut) : FlagwiseIn fun p => Machine.putLogic p o :=
  (FlagwiseIn.id.putFlag _ _).putFlag _ _

theorem FlagwiseIn.putShift (o : ShiftOut) : FlagwiseIn fun p => Machine.putShift p o :=
  ((FlagwiseIn.id.putFlag _ _).putFlag _ _).putFlag _ _

theorem FlagwiseIn.putCompare (o : CompareOut) : FlagwiseIn fun p => Machine.putCompare p o :=
  ((FlagwiseIn.id.putFlag _ _).putFlag _ _).putFlag _ _

theorem FlagwiseIn.putBit (o : BitOut) : FlagwiseIn fun p => Machine.putBit p o :=
  ((FlagwiseIn.id.putFlag _ _).putFlag _ _).putFlag _ _

theorem FlagwiseIn.putArith (o : ArithOut) : FlagwiseIn fun p => Machine.putArith p o :=
  (((FlagwiseIn.id.putFlag _ _).putFlag _ _).putFlag _ _).putFlag _ _

/-! ### Register updates -/

/-- An update of registers by `r`, which neither reads nor writes the status byte, and of the status byte by `k`. -/
structure RegisterUpdate (r : State → State) (k : State → Byte → Byte) : Prop where
  flagwise : ∀ s, FlagwiseIn (k s)
  read : ∀ s b, (r s).read b = s.read b := by intros; rfl
  regs : ∀ s p q, (r (s.setP p)).setP q = (r s).setP q := by intros; rfl
  other : ∀ s p, k (s.setP p) = k s := by intros; rfl

/-! ### A property of every operation -/

/-- The instructions that store through an effective address, or for a shift through A (R200). -/
def eaWriters : List Mnemonic := stores ++ modifiers ++ shifts

/-- The instructions that write A as their destination, the shifts' accumulator forms apart (R14, R37). -/
def aWriters : List Mnemonic :=
  [.LDA, .TXA, .TYA, .ADC, .SBC, .AND, .ORA, .EOR, .PLA, .LAX, .SLO, .RLA, .SRE, .RRA, .ISB]

/-- `P` holds of every single statement that an instruction with the mnemonic `m` may make, and of sequences of them. -/
structure HoldsOfStatements (P : {α : Type} → M α → Prop) (m : Mnemonic) : Prop where
  pure : ∀ {α : Type} (a : α), P (Pure.pure a : M α)
  bind : ∀ {α β : Type} {m₁ : M α} {m₂ : α → M β}, P m₁ → (∀ a, P (m₂ a)) → P (m₁ >>= m₂)
  memRead : ∀ a, P (Machine.memRead a)
  memWrite : m ∈ eaWriters ++ pushers → ∀ a v, P (Machine.memWrite a v)
  look : ∀ {α : Type} {g : State → α}, (∀ s p, g (s.setP p) = g s) → P (Machine.look g)
  lookFlag : ∀ f, f ≠ .D → f ≠ .I → P (Machine.look fun s => s.flag f)
  lookP : m = .PHP ∨ m = .BRK → P (Machine.look State.p)
  update : ∀ {r k}, RegisterUpdate r k → (m ∈ aWriters ++ eaWriters ∨ ∀ s, (r s).a = s.a) →
    P (Machine.update fun s => (r s).setP (k s s.p))

namespace HoldsOfStatements

variable {P : {α : Type} → M α → Prop} {m : Mnemonic} (c : HoldsOfStatements P m)
include c

theorem lookRegBind {α β : Type} {g : State → α} {k : α → M β} (hk : ∀ a, P (k a))
    (hg : ∀ s p, g (s.setP p) = g s := by intros; rfl) : P (Machine.look g >>= k) := c.bind (c.look hg) hk

theorem lookCarryBind {β : Type} {k : Bool → M β} (hk : ∀ a, P (k a)) : P ((Machine.look fun s => s.flag .C) >>= k) :=
  c.bind (c.lookFlag .C (by decide) (by decide)) hk

theorem setX (v : Byte) : P (Machine.update fun s => s.setX v) :=
  c.update (r := fun s => s.setX v) (k := fun _ p => p) { flagwise := fun _ => .id } (.inr fun _ => rfl)

theorem setY (v : Byte) : P (Machine.update fun s => s.setY v) :=
  c.update (r := fun s => s.setY v) (k := fun _ p => p) { flagwise := fun _ => .id } (.inr fun _ => rfl)

theorem setSp (f : Byte → Byte) : P (Machine.update fun s => s.setSp (f s.sp)) :=
  c.update (r := fun s => s.setSp (f s.sp)) (k := fun _ p => p)
    { flagwise := fun _ => .id } (.inr fun _ => rfl)

theorem setPC (v : Word) : P (Machine.setPC v) :=
  c.update (r := fun s => s.setPc v) (k := fun _ p => p) { flagwise := fun _ => .id } (.inr fun _ => rfl)

theorem setA (v : Byte) (hm : m ∈ aWriters ++ eaWriters := by decide) : P (Machine.update fun s => s.setA v) :=
  c.update (r := fun s => s.setA v) (k := fun _ p => p) { flagwise := fun _ => .id } (.inl hm)

theorem flags {k : Byte → Byte → Byte} (hk : ∀ a, FlagwiseIn (k a)) :
    P (Machine.update fun s => s.setP (k s.a s.p)) :=
  c.update (r := fun s => s) (k := fun s p => k s.a p) { flagwise := fun s => hk s.a } (.inr fun _ => rfl)

theorem setZS (v : Byte) : P (Machine.setZS v) := c.flags (k := fun _ p => putZS p v) fun _ => .putZS v

theorem setFlag (f : Flag) (v : Bool) : P (Machine.setFlag f v) :=
  c.flags (k := fun _ p => putFlag p f v) fun _ => FlagwiseIn.id.putFlag f v

theorem aAndFlags {f : Byte → Byte} {k : Byte → Byte → Byte} (hk : ∀ a, FlagwiseIn (k a))
    (hm : m ∈ aWriters ++ eaWriters) : P (Machine.update fun s => (s.setA (f s.a)).setP (k s.a s.p)) :=
  c.update (r := fun s => s.setA (f s.a)) (k := fun s p => k s.a p)
    { flagwise := fun s => hk s.a } (.inl hm)

theorem xAndFlags (f : Byte → LogicOut) : P (Machine.update fun s => (s.setX (f s.x).r).setP (putLogic s.p (f s.x))) :=
  c.update (r := fun s => s.setX (f s.x).r) (k := fun s p => putLogic p (f s.x)) { flagwise := fun _ => .putLogic _ }
    (.inr fun _ => rfl)

theorem yAndFlags (f : Byte → LogicOut) : P (Machine.update fun s => (s.setY (f s.y).r).setP (putLogic s.p (f s.y))) :=
  c.update (r := fun s => s.setY (f s.y).r) (k := fun s p => putLogic p (f s.y)) { flagwise := fun _ => .putLogic _ }
    (.inr fun _ => rfl)

theorem addToA (b : Byte) (k : Bool) (hm : m ∈ aWriters ++ eaWriters := by decide) : P (Machine.addToA b k) :=
  c.aAndFlags (f := fun a => (addF a b k).r) (fun a => .putArith (addF a b k)) hm

theorem subFromA (b : Byte) (k : Bool) (hm : m ∈ aWriters ++ eaWriters := by decide) : P (Machine.subFromA b k) :=
  c.aAndFlags (f := fun a => (subF a b k).r) (fun a => .putArith (subF a b k)) hm

theorem logicA (f : Byte → Byte → LogicOut) (b : Byte) (hm : m ∈ aWriters ++ eaWriters := by decide) :
    P (Machine.logicA f b) :=
  c.aAndFlags (f := fun a => (f a b).r) (fun a => .putLogic (f a b)) hm

theorem compareWith (r b : Byte) : P (Machine.compareWith r b) :=
  c.flags (k := fun _ p => putCompare p (compareF r b)) fun _ => .putCompare _

theorem memRead16 (a b : Word) : P (Machine.memRead16 a b) :=
  c.bind (c.memRead a) fun _ => c.bind (c.memRead b) fun _ => c.pure _

theorem resolve (o : Operand) : P (Machine.resolve o) := by
  cases o with
  | imp | acc | zp b | abs a => exact c.pure _
  | imm b | zpx b | zpy b | abx a | aby a | rel b => exact c.look fun _ _ => rfl
  | ind p => exact c.bind (c.memRead16 _ _) fun _ => c.pure _
  | izx b => exact c.lookRegBind fun _ => c.bind (c.memRead16 _ _) fun _ => c.pure _
  | izy b => exact c.bind (c.memRead16 _ _) fun _ => c.lookRegBind fun _ => c.pure _

theorem readEa (ea : Option Word) : P (Machine.readEa ea) := by
  cases ea with
  | none => exact c.look fun _ _ => rfl
  | some a => exact c.memRead a

theorem loadOperand (o : Operand) : P (Machine.loadOperand o) := by
  cases o with
  | imm b => exact c.pure b
  | _ => exact c.bind (c.resolve _) fun ea => c.readEa ea

theorem writeEa (ea : Option Word) (v : Byte) (hm : m ∈ eaWriters := by decide) : P (Machine.writeEa ea v) := by
  cases ea with
  | none => exact c.setA v (List.mem_append_right _ hm)
  | some a => exact c.memWrite (List.mem_append_left _ hm) a v

theorem loadBind (o : Operand) {k : Byte → M Unit} (hk : ∀ v, P (k v)) : P (Machine.loadOperand o >>= k) :=
  c.bind (c.loadOperand o) hk

theorem resolveBind (o : Operand) {k : Option Word → M Unit} (hk : ∀ ea, P (k ea)) : P (Machine.resolve o >>= k) :=
  c.bind (c.resolve o) hk

theorem modifyBind (o : Operand) {k : Option Word → Byte → M Unit} (hk : ∀ ea v, P (k ea v)) :
    P (Machine.resolve o >>= fun ea => Machine.readEa ea >>= k ea) :=
  c.resolveBind o fun ea => c.bind (c.readEa ea) (hk ea)

theorem stepMemory (f : Byte → LogicOut) (o : Operand) (hm : m ∈ eaWriters := by decide) : P (Machine.stepMemory f o) :=
  c.modifyBind o fun ea v =>
    c.bind (c.flags (k := fun _ p => putLogic p (f v)) fun _ => .putLogic _) fun _ => c.writeEa ea _ hm

theorem shiftOperand (f : Byte → Bool → ShiftOut) (o : Operand) (hm : m ∈ eaWriters := by decide) :
    P (Machine.shiftOperand f o) :=
  c.modifyBind o fun ea v => c.lookCarryBind fun k =>
    c.bind (c.flags (k := fun _ p => putShift p (f v k)) fun _ => .putShift _) fun _ => c.writeEa ea _ hm

theorem jumpTo (ea : Option Word) : P (Machine.jumpTo ea) := by
  cases ea with
  | none => exact c.pure ()
  | some a => exact c.setPC a

theorem branchIf (f : Flag) (v : Bool) (o : Operand) (hD : f ≠ .D := by decide) (hI : f ≠ .I := by decide) :
    P (Machine.branchIf f v o) :=
  c.resolveBind o fun ea => c.bind (c.lookFlag f hD hI) fun k => by
    split
    · exact c.jumpTo ea
    · exact c.pure ()

theorem push (v : Byte) (hm : m ∈ eaWriters ++ pushers := by decide) : P (Machine.push v) :=
  c.lookRegBind fun _ => c.bind (c.memWrite hm _ v) fun _ => c.setSp (· - 1)

theorem pushWord (w : Word) (hm : m ∈ eaWriters ++ pushers := by decide) : P (Machine.pushWord w) :=
  c.bind (c.push _ hm) fun _ => c.push _ hm

theorem pop : P Machine.pop :=
  c.bind (c.setSp (· + 1)) fun _ => c.lookRegBind fun _ => c.memRead _

theorem popWord : P Machine.popWord := c.bind c.pop fun _ => c.bind c.pop fun _ => c.pure _

end HoldsOfStatements

/-- A property that holds of the statements an instruction may make holds of its operation. -/
theorem handler_of_statements {P : {α : Type} → M α → Prop} {m : Mnemonic} (c : HoldsOfStatements P m) (o : Operand) :
    P (handler m o) := by
  cases m with
  | LDA => exact c.loadBind o fun v => c.bind (c.setA v) fun _ => c.setZS v
  | LDX => exact c.loadBind o fun v => c.bind (c.setX v) fun _ => c.setZS v
  | LDY => exact c.loadBind o fun v => c.bind (c.setY v) fun _ => c.setZS v
  | LAX => exact c.loadBind o fun v => c.bind (c.setA v) fun _ => c.bind (c.setX v) fun _ => c.setZS v
  | STA | STX | STY | SAX => exact c.resolveBind o fun ea => c.lookRegBind fun v => c.writeEa ea v
  | TAX | TSX => exact c.lookRegBind fun v => c.bind (c.setX v) fun _ => c.setZS v
  | TAY => exact c.lookRegBind fun v => c.bind (c.setY v) fun _ => c.setZS v
  | TXA | TYA => exact c.lookRegBind fun v => c.bind (c.setA v) fun _ => c.setZS v
  | TXS => exact c.lookRegBind fun v => c.setSp fun _ => v
  | ADC => exact c.loadBind o fun b => c.lookCarryBind fun k => c.addToA b k
  | SBC => exact c.loadBind o fun b => c.lookCarryBind fun k => c.subFromA b k
  | AND | ORA | EOR => exact c.loadBind o fun b => c.logicA _ b
  | CMP | CPX | CPY => exact c.loadBind o fun b => c.lookRegBind fun r => c.compareWith r b
  | BIT =>
    exact c.loadBind o fun b => c.flags (k := fun a p => putBit p (bitF a b)) fun _ => .putBit _
  | INC | DEC => exact c.stepMemory _ o
  | INX | DEX => exact c.xAndFlags _
  | INY | DEY => exact c.yAndFlags _
  | ASL | LSR | ROL | ROR => exact c.shiftOperand _ o
  | BCC | BCS | BEQ | BNE | BMI | BPL | BVC | BVS => exact c.branchIf _ _ o
  | JMP => exact c.resolveBind o fun ea => c.jumpTo ea
  | JSR =>
    exact c.resolveBind o fun ea => c.lookRegBind fun pc => c.bind (c.pushWord _) fun _ => c.jumpTo ea
  | RTS => exact c.bind c.popWord fun w => c.setPC _
  | BRK =>
    exact c.lookRegBind fun pc => c.bind (c.pushWord _) fun _ => c.bind (c.lookP (.inr rfl)) fun p =>
      c.bind (c.push _) fun _ => c.bind (c.setFlag .I true) fun _ => c.bind (c.memRead16 _ _) fun w => c.setPC w
  | RTI =>
    exact c.bind c.pop fun v =>
      c.bind (c.flags (k := fun _ _ => pullImage v) fun _ => .const _) fun _ =>
      c.bind c.popWord fun w => c.setPC w
  | PHA => exact c.lookRegBind fun v => c.push v
  | PHP => exact c.bind (c.lookP (.inl rfl)) fun p => c.push _
  | PLA => exact c.bind c.pop fun v => c.bind (c.setA v) fun _ => c.setZS v
  | PLP => exact c.bind c.pop fun v => c.flags (k := fun _ _ => pullImage v) fun _ => .const _
  | CLC | SEC | CLI | SEI | CLD | SED | CLV => exact c.setFlag _ _
  | NOP => exact c.resolveBind o fun _ => c.pure ()
  | SLO | SRE =>
    exact c.modifyBind o fun ea v => c.bind (c.setFlag .C _) fun _ => c.bind (c.writeEa ea _) fun _ => c.logicA _ _
  | RLA =>
    exact c.modifyBind o fun ea v => c.lookCarryBind fun k => c.bind (c.setFlag .C _) fun _ =>
      c.bind (c.writeEa ea _) fun _ => c.logicA _ _
  | RRA =>
    exact c.modifyBind o fun ea v => c.lookCarryBind fun k => c.bind (c.writeEa ea _) fun _ => c.addToA _ _
  | DCP =>
    exact c.modifyBind o fun ea v => c.bind (c.writeEa ea _) fun _ => c.lookRegBind fun a =>
      c.compareWith a _
  | ISB => exact c.modifyBind o fun ea v => c.bind (c.writeEa ea _) fun _ => c.lookCarryBind fun k => c.subFromA _ k
  | UNK => exact c.pure ()

/-! ### What an instruction looks at: the Decimal and the Interrupt-disable flag -/

/-- `m` runs alike from two states that differ in the flag `f` only, and leaves two such states. -/
def Blind (f : Flag) {α : Type} (m : M α) : Prop := ∀ s v t p, m s = .ok v t → KeepsFlags s.p p [f] →
  ∃ q, m (s.setP p) = .ok v (t.setP q) ∧ KeepsFlags t.p q [f]

theorem Blind.bind {f : Flag} {α β : Type} {m₁ : M α} {m₂ : α → M β} (h₁ : Blind f m₁) (h₂ : ∀ a, Blind f (m₂ a)) :
    Blind f (m₁ >>= m₂) := fun s v t p h hp => by
  obtain ⟨a, u, hu, ht⟩ := M.bind_eq_ok h
  obtain ⟨q, hu', hq⟩ := h₁ s a u p hu hp
  obtain ⟨q', ht', hq'⟩ := h₂ a u v t q ht hq
  exact ⟨q', (M.bind_ok hu').trans ht', hq'⟩

theorem Blind.memRead (f : Flag) (a : Word) : Blind f (Machine.memRead a) := fun s v t p h hp => by
  obtain ⟨rfl, hv⟩ := memRead_eq_ok h
  exact ⟨p, memRead_of_some hv, hp⟩

theorem Blind.memWrite (f : Flag) (a : Word) (v : Byte) : Blind f (Machine.memWrite a v) := fun s _ t p h hp => by
  have hw := memWrite_eq_ok h
  obtain ⟨-, -, -, -, -, hkept, -⟩ := State.write_fields hw
  refine ⟨p, memWrite_of_some ?_, hkept ▸ hp⟩
  rw [State.write_setP, hw, Option.map_some]

theorem Blind.update {f : Flag} {r : State → State} {k : State → Byte → Byte} (h : RegisterUpdate r k) :
    Blind f (Machine.update fun s => (r s).setP (k s s.p)) := fun s _ t p hrun hp => by
  cases hrun
  refine ⟨k s p, ?_, h.flagwise s _ _ _ hp⟩
  simp only [update_apply, h.regs, h.other, State.setP_p, State.setP_setP]

/-- No instruction but PHP and BRK, which push it, looks at D or I (R24, R25, R146). -/
theorem blind_statements {f : Flag} (hf : f = .D ∨ f = .I) {m : Mnemonic} (hphp : m ≠ .PHP) (hbrk : m ≠ .BRK) :
    HoldsOfStatements (Blind f) m where
  pure a := fun s v t p h hp => by
    cases h
    exact ⟨p, rfl, hp⟩
  bind := Blind.bind
  memRead := Blind.memRead f
  memWrite _ := Blind.memWrite f
  look hg := fun s v t p h hp => by
    cases h
    exact ⟨p, by rw [look_apply, hg], hp⟩
  lookFlag g hD hI := fun s v t p h hp => by
    cases h
    have hg : g ∉ [f] := by rcases hf with rfl | rfl <;> simpa
    exact ⟨p, by rw [look_apply, State.setP_flag, hp g hg]; rfl, hp⟩
  lookP hm := (hm.elim hphp hbrk).elim
  update h _ := Blind.update h

/-- Settles O59: the two runs differ in the flag alone from end to end. -/
theorem decimalAndInterruptFlagsAreStorageOnly : Obligations.DecimalAndInterruptFlagsAreStorageOnly := by
  unfold Obligations.DecimalAndInterruptFlagsAreStorageOnly
  intro i s t f v hf h hphp hbrk
  have hblind : Blind f (handler i.mnemonic i.operand) :=
    handler_of_statements (blind_statements hf hphp hbrk) i.operand
  obtain ⟨q, hrun, hq⟩ := hblind s () t _ (handler_of_exec_next h) (keepsFlags_putFlag (keepsFlags_refl s.p) f v)
  exact ⟨q, exec_of_handler_ok hrun, fun g hg => hq g (by simpa using hg)⟩

/-! ### Frames of memory and of A -/

section
variable {m : Mnemonic} {R : State → State → Prop}

/-- A relation of states that every statement of `m` respects. -/
theorem respects_statements (hR : StatePreorder R)
    (hw : m ∈ eaWriters ++ pushers → ∀ s a v t, State.write s a v = some t → R s t)
    (hu : ∀ {r k}, RegisterUpdate r k → (m ∈ aWriters ++ eaWriters ∨ ∀ s, (r s).a = s.a) →
      ∀ s, R s ((r s).setP (k s s.p))) : HoldsOfStatements (Respects R) m where
  pure a := .pure hR a
  bind := .bind hR
  memRead := .memRead hR
  memWrite hm := .memWrite (hw hm)
  look _ := .look hR _
  lookFlag _ _ _ := .look hR _
  lookP _ := .look hR _
  update h ha := .update (hu h ha)

end

/-- An instruction that neither stores at an address nor pushes leaves every byte of memory. -/
theorem handler_keeps_reads {m : Mnemonic} {o : Operand} {s t : State} (h : handler m o s = .ok () t)
    (hm : m ∉ eaWriters ++ pushers) (b : Word) : t.read b = s.read b := by
  have hrespects : Respects (fun s t => t.read b = s.read b) (handler m o) :=
    handler_of_statements (respects_statements (StatePreorder.keeps fun s => s.read b) (fun hw => absurd hw hm)
      fun hr _ s => hr.read s b) o
  exact hrespects s () t h

/-- An instruction that neither has A as its destination nor stores through an address leaves A. -/
theorem handler_keeps_a {m : Mnemonic} {o : Operand} {s t : State} (h : handler m o s = .ok () t)
    (hm : m ∉ aWriters ++ eaWriters) : t.a = s.a := by
  have hrespects : Respects (fun s t => t.a = s.a) (handler m o) :=
    handler_of_statements (respects_statements (StatePreorder.keeps State.a)
      (fun _ _ _ _ _ hw => by
        obtain ⟨-, ha, -⟩ := State.write_fields hw
        exact ha)
      fun _ ha s => ha.elim (fun hin => absurd hin hm) fun hkept => hkept s) o
  exact hrespects s () t h

/-- What an instruction that stores through an address does to memory and to A: one write, and A's own result. -/
theorem handler_stores {m : Mnemonic} {o : Operand} {s t : State} (h : handler m o s = .ok () t) (hm : m ∈ eaWriters) :
    ∃ ea v w, resolve o s = .ok ea s ∧ writeEa ea v s = .ok () w ∧ (∀ b, t.read b = w.read b) ∧
      (m ∉ aWriters → t.a = w.a) := by
  cases m with
  | STA | STX | STY | SAX =>
    obtain ⟨ea, hr, hw⟩ := resolve_bind_ok_iff.mp h
    exact ⟨ea, _, t, hr, hw, fun _ => rfl, fun _ => rfl⟩
  | INC | DEC =>
    obtain ⟨ea, v, w, hr, -, hw, rfl⟩ := stepMemory_ok_iff.mp h
    exact ⟨ea, _, w, hr, hw, fun _ => rfl, fun _ => rfl⟩
  | ASL | LSR | ROL | ROR =>
    obtain ⟨ea, v, w, hr, -, hw, rfl⟩ := shiftOperand_ok_iff.mp h
    exact ⟨ea, _, w, hr, hw, fun _ => rfl, fun _ => rfl⟩
  | DCP =>
    obtain ⟨ea, v, w, hr, -, hw, rfl⟩ := opDcp_ok_iff.mp h
    exact ⟨ea, _, w, hr, hw, fun _ => rfl, fun _ => rfl⟩
  | SLO =>
    obtain ⟨ea, v, w, hr, -, hw, rfl⟩ := opSlo_ok_iff.mp h
    exact ⟨ea, _, w, hr, hw, fun _ => rfl, fun ha => absurd (by decide) ha⟩
  | RLA =>
    obtain ⟨ea, v, w, hr, -, hw, rfl⟩ := opRla_ok_iff.mp h
    exact ⟨ea, _, w, hr, hw, fun _ => rfl, fun ha => absurd (by decide) ha⟩
  | SRE =>
    obtain ⟨ea, v, w, hr, -, hw, rfl⟩ := opSre_ok_iff.mp h
    exact ⟨ea, _, w, hr, hw, fun _ => rfl, fun ha => absurd (by decide) ha⟩
  | RRA =>
    obtain ⟨ea, v, w, hr, -, hw, rfl⟩ := opRra_ok_iff.mp h
    exact ⟨ea, _, w, hr, hw, fun _ => rfl, fun ha => absurd (by decide) ha⟩
  | ISB =>
    obtain ⟨ea, v, w, hr, -, hw, rfl⟩ := opIsb_ok_iff.mp h
    exact ⟨ea, _, w, hr, hw, fun _ => rfl, fun ha => absurd (by decide) ha⟩
  | _ => exact absurd hm (by decide)

/-! ### Instructions that store at their address -/

theorem resolve_eq_none {o : Operand} {s t : State} (h : resolve o s = .ok none t) : o = .imp ∨ o = .acc := by
  cases o with
  | imp => exact .inl rfl
  | acc => exact .inr rfl
  | ind p =>
    rw [resolve_ind] at h
    obtain ⟨w, u, -, hend⟩ := M.bind_eq_ok h
    cases hend
  | izx b =>
    rw [resolve_izx] at h
    obtain ⟨w, u, -, hend⟩ := M.bind_eq_ok h
    cases hend
  | izy b =>
    rw [resolve_izy] at h
    obtain ⟨w, u, -, hend⟩ := M.bind_eq_ok h
    cases hend
  | _ => cases h

theorem eaWriters_of_storesAtEa {i : Instr} (h : storesAtEa i) : i.mnemonic ∈ eaWriters := by
  rcases h with hm | hm | ⟨hm, -⟩ <;> simp only [eaWriters, List.mem_append, hm, true_or, or_true]

/-- The other instructions that may write through an address are the accumulator forms of the shifts. -/
theorem acc_of_not_storesAtEa {i : Instr} (hm : i.mnemonic ∈ eaWriters) (h : ¬ storesAtEa i) :
    i.mnemonic ∈ shifts ∧ i.operand = .acc := by
  obtain ⟨hstores, hmodifiers, hshifts⟩ : i.mnemonic ∉ stores ∧ i.mnemonic ∉ modifiers ∧
      ¬(i.mnemonic ∈ shifts ∧ i.operand ≠ .acc) := by simpa only [storesAtEa, not_or] using h
  have hshift : i.mnemonic ∈ shifts := by
    simpa only [eaWriters, List.mem_append, hstores, hmodifiers, false_or] using hm
  exact ⟨hshift, Decidable.not_not.mp fun hacc => hshifts ⟨hshift, hacc⟩⟩

/-- An instruction that stores at its address has one (R86): its modes are neither implied nor, as it is used, A. -/
theorem operand_of_storesAtEa {i : Instr} (h : storesAtEa i) : i.operand ≠ .imp ∧ i.operand ≠ .acc := by
  have hmode := mode_mem_modes i
  have himplied : ∀ m ∈ eaWriters, .implied ∉ m.modes := by decide
  have hacc : ∀ m ∈ stores ++ modifiers, .accumulator ∉ m.modes := by decide
  refine ⟨fun ho => ?_, fun ho => ?_⟩ <;> rw [ho] at hmode
  · exact himplied _ (eaWriters_of_storesAtEa h) hmode
  · rcases h with hm | hm | ⟨-, hne⟩
    · exact hacc _ (List.mem_append_left _ hm) hmode
    · exact hacc _ (List.mem_append_right _ hm) hmode
    · exact hne ho

/-- Such an instruction makes one store of the arbiter, and leaves A but for its own result. -/
theorem exec_stores {i : Instr} {s t : State} (h : exec i s = .next t) (hs : storesAtEa i) :
    ∃ ea v w, resolve i.operand s = .ok (some ea) s ∧ s.write ea v = some w ∧ (∀ b, t.read b = w.read b) ∧
      (i.mnemonic ∉ aWriters → t.a = s.a) := by
  obtain ⟨ea, v, w, hr, hw, hreads, ha⟩ := handler_stores (handler_of_exec_next h) (eaWriters_of_storesAtEa hs)
  obtain ⟨himp, hacc⟩ := operand_of_storesAtEa hs
  rcases writeEa_eq_ok hw with ⟨rfl, -⟩ | ⟨a, rfl, hwrite⟩
  · exact ((resolve_eq_none hr).elim himp hacc).elim
  · obtain ⟨-, hkept, -⟩ := State.write_fields hwrite
    exact ⟨a, v, w, hr, hwrite, hreads, fun hm => (ha hm).trans hkept⟩

/-- A store leaves every address that does not reach its byte. -/
theorem State.read_of_write_elsewhere {s t : State} {a b : Word} {v : Byte} (hw : s.write a v = some t)
    (h : s.locate b ≠ s.locate a) : t.read b = s.read b := by
  rw [State.read_after_write hw, if_neg fun hsame => h hsame.1]

theorem exec_acc_shift_keeps_reads {i : Instr} {s t : State} (h : exec i s = .next t) (hm : i.mnemonic ∈ shifts)
    (hacc : i.operand = .acc) (b : Word) : t.read b = s.read b := by
  obtain ⟨ea, v, w, hr, hw, hreads, -⟩ :=
    handler_stores (handler_of_exec_next h) (List.mem_append_right (stores ++ modifiers) hm)
  rw [hacc, resolve_acc] at hr
  cases hr
  cases hw
  exact hreads b

/-! ### The frames of X and Y -/

theorem exec_keeps_x {i : Instr} {s t : State} (h : exec i s = .next t) (hm : i.mnemonic ∉ xWriters) : t.x = s.x := by
  have c : CoversWrites (fun s t => t.x = s.x) i.mnemonic :=
    { StatePreorder.keeps State.x with
      write := fun _ _ _ _ hw => by
        obtain ⟨-, -, hx, -⟩ := State.write_fields hw
        exact hx
      setA := fun _ _ => rfl
      setX := fun hx => absurd hx hm
      setY := fun _ _ _ => rfl
      setSp := fun _ _ _ => rfl
      setPc := fun _ _ _ => rfl
      setP := fun _ _ _ _ _ => rfl }
  exact exec_respects h (handler_respects_of_covers c _)

theorem exec_keeps_y {i : Instr} {s t : State} (h : exec i s = .next t) (hm : i.mnemonic ∉ yWriters) : t.y = s.y := by
  have c : CoversWrites (fun s t => t.y = s.y) i.mnemonic :=
    { StatePreorder.keeps State.y with
      write := fun _ _ _ _ hw => by
        obtain ⟨-, -, -, hy, -⟩ := State.write_fields hw
        exact hy
      setA := fun _ _ => rfl
      setX := fun _ _ _ => rfl
      setY := fun hy => absurd hy hm
      setSp := fun _ _ _ => rfl
      setPc := fun _ _ _ => rfl
      setP := fun _ _ _ _ _ => rfl }
  exact exec_respects h (handler_respects_of_covers c _)

theorem exec_keeps_a {i : Instr} {s t : State} (h : exec i s = .next t) (hm : i.mnemonic ∉ aWriters)
    (hacc : i.mnemonic ∈ shifts → i.operand ≠ .acc) : t.a = s.a := by
  by_cases hs : storesAtEa i
  · obtain ⟨ea, v, w, -, -, -, ha⟩ := exec_stores h hs
    exact ha hm
  · have hea : i.mnemonic ∉ eaWriters := fun hea => by
      obtain ⟨hshift, ho⟩ := acc_of_not_storesAtEa hea hs
      exact hacc hshift ho
    exact handler_keeps_a (handler_of_exec_next h) fun hin => (List.mem_append.mp hin).elim hm hea

/-! ### The statements about frames -/

/-- Settles O54: one frame per register, and no statement of an instruction writes the rest. -/
theorem registersOutsideTheDestinationAreKept : Obligations.RegistersOutsideTheDestinationAreKept := by
  unfold Obligations.RegistersOutsideTheDestinationAreKept
  intro i s t h
  exact ⟨exec_keeps_a h, exec_keeps_x h, exec_keeps_y h,
    fun hm => exec_keeps_sp h fun hs => hm ((List.Perm.mem_iff (by decide)).mp hs),
    State.setup_eq_iff.mp (exec_keeps_setup h)⟩

/-- Settles O55: the walk through the operations by the flags each may write. -/
theorem flagsOutsideTheWrittenAreKept : Obligations.FlagsOutsideTheWrittenAreKept := by
  unfold Obligations.FlagsOutsideTheWrittenAreKept
  exact fun i s t f h hm => exec_keeps_flag h hm

/-- Settles O56: an instruction makes no store, or changes A through the accumulator form, or makes the one store. -/
theorem memoryOutsideTheStoreIsKept : Obligations.MemoryOutsideTheStoreIsKept := by
  unfold Obligations.MemoryOutsideTheStoreIsKept
  refine fun i s t h => ⟨fun hs hpush b => ?_, fun hs => ?_⟩
  · by_cases hea : i.mnemonic ∈ eaWriters
    · obtain ⟨hshift, hacc⟩ := acc_of_not_storesAtEa hea hs
      exact exec_acc_shift_keeps_reads h hshift hacc b
    · exact handler_keeps_reads (handler_of_exec_next h) (fun hin => (List.mem_append.mp hin).elim hea hpush) b
  · obtain ⟨ea, v, w, hr, hw, hreads, -⟩ := exec_stores h hs
    exact ⟨ea, hr, fun b hne => (hreads b).trans (State.read_of_write_elsewhere hw hne)⟩

/-! ### Memory outside a push -/

section
variable {s t : State} {b : Word}

theorem push_keeps_reads {v : Byte} (h : push v s = .ok () t) (hne : s.locate b ≠ s.locate (stackAddr s.sp)) :
    t.read b = s.read b := by
  obtain ⟨w, hw, rfl⟩ := push_ok_iff.mp h
  rw [State.setSp_read, State.read_of_write_elsewhere hw hne]

/-- Two stores leave every address that reaches neither's byte. -/
theorem State.read_of_writes_elsewhere {u w : State} {a₁ a₂ : Word} {v₁ v₂ : Byte} (h₁ : s.write a₁ v₁ = some u)
    (h₂ : u.write a₂ v₂ = some w) (hne₁ : s.locate b ≠ s.locate a₁) (hne₂ : s.locate b ≠ s.locate a₂) :
    w.read b = s.read b := by
  have hne : u.locate b ≠ u.locate a₂ := by rwa [State.write_locate h₁, State.write_locate h₁]
  exact (State.read_of_write_elsewhere h₂ hne).trans (State.read_of_write_elsewhere h₁ hne₁)

end

/-- Settles O57: the pushed bytes are the only stores, at the stack addresses going down from SP. -/
theorem memoryOutsideThePushIsKept : Obligations.MemoryOutsideThePushIsKept := by
  unfold Obligations.MemoryOutsideThePushIsKept
  intro i s t b h hm h1 h2 h3
  have hrun := handler_of_exec_next h
  cases hi : i.mnemonic with
  | PHA | PHP => rw [hi] at hrun; exact push_keeps_reads hrun h1
  | JSR =>
    rw [hi] at hrun
    obtain ⟨ea, w, -, hpush, rfl⟩ := opJsr_ok_iff.mp hrun
    obtain ⟨u, v, hw1, hw2, rfl⟩ := pushWord_ok_iff.mp hpush
    rw [State.setPc_read, State.setSp_read]
    exact State.read_of_writes_elsewhere hw1 hw2 h1 (h2 (.inl hi))
  | BRK =>
    rw [hi] at hrun
    obtain ⟨u, v, w, lo, hi', hw1, hw2, hw3, -, -, rfl⟩ := enterVector_ok_iff.mp hrun
    have hsp : s.sp - 1 - 1 = s.sp - 2 := by bv_omega
    have hne : v.locate b ≠ v.locate (stackAddr (s.sp - 1 - 1)) := by
      rw [State.write_locate hw2, State.write_locate hw2, State.write_locate hw1, State.write_locate hw1, hsp]
      exact h3 hi
    exact (State.read_of_write_elsewhere hw3 hne).trans
      (State.read_of_writes_elsewhere hw1 hw2 h1 (h2 (.inr hi)))
  | _ => exact absurd (hi ▸ hm) (by decide)

end Sys2Proof.Machine
